-- ==== Sys2Proof/Word.lean ====
section
/-!
DEFINITION. Word: the words of the machine and their plainest arithmetic.
-/

namespace Sys2Proof

/-- A general register's contents (R15). -/
abbrev Word := BitVec 64

/-- An instruction word (R55). -/
abbrev IWord := BitVec 32

/-- One byte of a memory. -/
abbrev Byte := BitVec 8

/-- A bit vector holding a natural number modulo its width. -/
abbrev bits (w n : Nat) : BitVec w := BitVec.ofNat w n

end Sys2Proof
end

