-- ==== Sys2Proof/Syntax.lean ====
section
/-!
DEFINITION. Syntax: one constructor for each row of the opcode table. The first 156 are instruction words (or pairs
of words, R58), their fields in the table's order and widths; the rest are the steps of the other agents (hods, L2
slices, scheduler, host link, network, error machinery), whose operands say which of the pending things the step acts
on. A prefix (R72) and a descriptor (R58) are no rows of the table: the prefix is latched by the fetch (Turn.pfx), a
descriptor's fields are fields of its pair's constructor.
-/

namespace Sys2Proof

/-- Which word of the other agents' plain data an access of the control link carries. -/
abbrev Bytes := List (BitVec 8)

/-- One instruction of the core, or one step of another agent of the package (R1 to R4). -/
inductive Instr where
  | trl (f : BitVec 7) (s : BitVec 7) (t : BitVec 7) (a : BitVec 1)   -- TRL
  | iadd (d : BitVec 7) (a : BitVec 7) (b : BitVec 7) (w : BitVec 2)   -- IADD
  | isub (d : BitVec 7) (a : BitVec 7) (b : BitVec 7) (w : BitVec 2)   -- ISUB
  | imul (d : BitVec 7) (a : BitVec 7) (b : BitVec 7) (w : BitVec 2)   -- IMUL
  | imulh (d : BitVec 7) (a : BitVec 7) (b : BitVec 7) (w : BitVec 2)   -- IMULH
  | imulhn (d : BitVec 7) (a : BitVec 7) (b : BitVec 7) (w : BitVec 2)   -- IMULHN
  | imad (d : BitVec 7) (a : BitVec 7) (b : BitVec 7) (w : BitVec 2)   -- IMAD
  | imin (d : BitVec 7) (a : BitVec 7) (b : BitVec 7) (w : BitVec 2)   -- IMIN
  | imax (d : BitVec 7) (a : BitVec 7) (b : BitVec 7) (w : BitVec 2)   -- IMAX
  | iminn (d : BitVec 7) (a : BitVec 7) (b : BitVec 7) (w : BitVec 2)   -- IMINN
  | imaxn (d : BitVec 7) (a : BitVec 7) (b : BitVec 7) (w : BitVec 2)   -- IMAXN
  | shl (d : BitVec 7) (a : BitVec 7) (b : BitVec 7) (w : BitVec 2)   -- SHL
  | shr (d : BitVec 7) (a : BitVec 7) (b : BitVec 7) (w : BitVec 2)   -- SHR
  | sar (d : BitVec 7) (a : BitVec 7) (b : BitVec 7) (w : BitVec 2)   -- SAR
  | rol (d : BitVec 7) (a : BitVec 7) (b : BitVec 7) (w : BitVec 2)   -- ROL
  | ror (d : BitVec 7) (a : BitVec 7) (b : BitVec 7) (w : BitVec 2)   -- ROR
  | icmp (c : BitVec 3) (p : BitVec 4) (a : BitVec 7) (b : BitVec 7) (w : BitVec 2)   -- ICMP
  | iaddc (d : BitVec 7) (a : BitVec 7) (w : BitVec 3) (c : BitVec 4)   -- IADDC
  | isubb (d : BitVec 7) (a : BitVec 7) (w : BitVec 3) (c : BitVec 4)   -- ISUBB
  | ineg (d : BitVec 7) (a : BitVec 7) (n : BitVec 1) (w : BitVec 3)   -- INEG
  | iabs (d : BitVec 7) (a : BitVec 7) (n : BitVec 1) (w : BitVec 3)   -- IABS
  | popc (d : BitVec 7) (a : BitVec 7) (w : BitVec 3)   -- POPC
  | clz (d : BitVec 7) (a : BitVec 7) (w : BitVec 3)   -- CLZ
  | ctz (d : BitVec 7) (a : BitVec 7) (w : BitVec 3)   -- CTZ
  | brev (d : BitVec 7) (a : BitVec 7) (w : BitVec 3)   -- BREV
  | and (d : BitVec 7) (a : BitVec 7) (b : BitVec 7)   -- AND
  | or (d : BitVec 7) (a : BitVec 7) (b : BitVec 7)   -- OR
  | xor (d : BitVec 7) (a : BitVec 7) (b : BitVec 7)   -- XOR
  | andn (d : BitVec 7) (a : BitVec 7) (b : BitVec 7)   -- ANDN
  | not (d : BitVec 7) (a : BitVec 7)   -- NOT
  | mov (d : BitVec 7) (a : BitVec 7)   -- MOV
  | sel (d : BitVec 7) (a : BitVec 7) (w : BitVec 3) (c : BitVec 4)   -- SEL
  | prmb (d : BitVec 7) (a : BitVec 7) (b : BitVec 7)   -- PRMB
  | bfxNatural (d : BitVec 7) (a : BitVec 7) (b : BitVec 7)   -- BFX_NATURAL
  | bfxSigned (d : BitVec 7) (a : BitVec 7) (b : BitVec 7)   -- BFX_SIGNED
  | bfi (d : BitVec 7) (a : BitVec 7) (b : BitVec 7)   -- BFI
  | lea (d : BitVec 7) (a : BitVec 7) (b : BitVec 7) (k : BitVec 2)   -- LEA
  | pand (d : BitVec 4) (a : BitVec 4) (b : BitVec 4)   -- PAND
  | por (d : BitVec 4) (a : BitVec 4) (b : BitVec 4)   -- POR
  | pxor (d : BitVec 4) (a : BitVec 4) (b : BitVec 4)   -- PXOR
  | pnot (d : BitVec 4) (a : BitVec 4)   -- PNOT
  | p2g (d : BitVec 7) (a : BitVec 4)   -- P2G
  | g2p (d : BitVec 4) (a : BitVec 7)   -- G2P
  | wmacl (d : BitVec 7) (a : BitVec 7) (b : BitVec 7) (c : BitVec 3)   -- WMACL
  | wmach (d : BitVec 7) (a : BitVec 7) (b : BitVec 7) (c : BitVec 3)   -- WMACH
  | iaddNatural (d : BitVec 7) (a : BitVec 7) (b : BitVec 7) (w : BitVec 2)   -- IADD_NATURAL
  | isubNatural (d : BitVec 7) (a : BitVec 7) (b : BitVec 7) (w : BitVec 2)   -- ISUB_NATURAL
  | imulNatural (d : BitVec 7) (a : BitVec 7) (b : BitVec 7) (w : BitVec 2)   -- IMUL_NATURAL
  | addi (d : BitVec 7) (a : BitVec 7) (i : BitVec 13)   -- ADDI
  | andImmediate (d : BitVec 7) (a : BitVec 7) (i : BitVec 11)   -- AND_IMMEDIATE
  | orImmediate (d : BitVec 7) (a : BitVec 7) (i : BitVec 11)   -- OR_IMMEDIATE
  | xorImmediate (d : BitVec 7) (a : BitVec 7) (i : BitVec 11)   -- XOR_IMMEDIATE
  | andnImmediate (d : BitVec 7) (a : BitVec 7) (i : BitVec 11)   -- ANDN_IMMEDIATE
  | shlImmediate (d : BitVec 7) (a : BitVec 7) (k : BitVec 6)   -- SHL_IMMEDIATE
  | shrImmediate (d : BitVec 7) (a : BitVec 7) (k : BitVec 6)   -- SHR_IMMEDIATE
  | sarImmediate (d : BitVec 7) (a : BitVec 7) (k : BitVec 6)   -- SAR_IMMEDIATE
  | rolImmediate (d : BitVec 7) (a : BitVec 7) (k : BitVec 6)   -- ROL_IMMEDIATE
  | rorImmediate (d : BitVec 7) (a : BitVec 7) (k : BitVec 6)   -- ROR_IMMEDIATE
  | bfxImmediateNatural (d : BitVec 7) (a : BitVec 7) (l : BitVec 4) (p : BitVec 6)   -- BFX_IMMEDIATE_NATURAL
  | bfxImmediateSigned (d : BitVec 7) (a : BitVec 7) (l : BitVec 4) (p : BitVec 6)   -- BFX_IMMEDIATE_SIGNED
  | cmpi (c : BitVec 3) (p : BitVec 4) (a : BitVec 7) (i : BitVec 13)   -- CMPI
  | lui (d : BitVec 7) (i : BitVec 20)   -- LUI
  | fadd (d : BitVec 7) (a : BitVec 7) (b : BitVec 7) (t : BitVec 2)   -- FADD
  | fsub (d : BitVec 7) (a : BitVec 7) (b : BitVec 7) (t : BitVec 2)   -- FSUB
  | fmul (d : BitVec 7) (a : BitVec 7) (b : BitVec 7) (t : BitVec 2)   -- FMUL
  | ffma (d : BitVec 7) (a : BitVec 7) (b : BitVec 7) (t : BitVec 2)   -- FFMA
  | ffms (d : BitVec 7) (a : BitVec 7) (b : BitVec 7) (t : BitVec 2)   -- FFMS
  | fnma (d : BitVec 7) (a : BitVec 7) (b : BitVec 7) (t : BitVec 2)   -- FNMA
  | fabs (d : BitVec 7) (a : BitVec 7) (t : BitVec 2)   -- FABS
  | fneg (d : BitVec 7) (a : BitVec 7) (t : BitVec 2)   -- FNEG
  | fcps (d : BitVec 7) (a : BitVec 7) (b : BitVec 7) (t : BitVec 2)   -- FCPS
  | fcmp (c : BitVec 3) (p : BitVec 4) (a : BitVec 7) (b : BitVec 7) (t : BitVec 2)   -- FCMP
  | fclass (p : BitVec 4) (a : BitVec 7) (m : BitVec 7) (t : BitVec 2)   -- FCLASS
  | fmin (d : BitVec 7) (a : BitVec 7) (b : BitVec 7) (t : BitVec 2)   -- FMIN
  | fmax (d : BitVec 7) (a : BitVec 7) (b : BitVec 7) (t : BitVec 2)   -- FMAX
  | cvt (d : BitVec 7) (a : BitVec 7) (p : BitVec 3) (s : BitVec 4) (t : BitVec 4)   -- CVT
  | cvts (d : BitVec 7) (a : BitVec 7) (p : BitVec 3) (s : BitVec 4) (t : BitVec 4)   -- CVTS
  | seed (a : BitVec 7)   -- SEED
  | rnd (d : BitVec 7)   -- RND
  | fdiv (d : BitVec 7) (a : BitVec 7) (l : BitVec 4) (t : BitVec 2)   -- FDIV
  | fsqrt (d : BitVec 7) (a : BitVec 7) (l : BitVec 4) (t : BitVec 2)   -- FSQRT
  | exp2 (d : BitVec 7) (a : BitVec 7) (l : BitVec 4) (t : BitVec 2)   -- EXP2
  | log2 (d : BitVec 7) (a : BitVec 7) (l : BitVec 4) (t : BitVec 2)   -- LOG2
  | rcp (d : BitVec 7) (a : BitVec 7) (l : BitVec 4) (t : BitVec 2)   -- RCP
  | rsq (d : BitVec 7) (a : BitVec 7) (l : BitVec 4) (t : BitVec 2)   -- RSQ
  | sin (d : BitVec 7) (a : BitVec 7) (l : BitVec 4) (t : BitVec 2)   -- SIN
  | cos (d : BitVec 7) (a : BitVec 7) (l : BitVec 4) (t : BitVec 2)   -- COS
  | tanh (d : BitVec 7) (a : BitVec 7) (l : BitVec 4) (t : BitVec 2)   -- TANH
  | sigm (d : BitVec 7) (a : BitVec 7) (l : BitVec 4) (t : BitVec 2)   -- SIGM
  | sftp (d : BitVec 7) (a : BitVec 7) (l : BitVec 4) (t : BitVec 2)   -- SFTP
  | idivSigned (d : BitVec 7) (a : BitVec 7) (l : BitVec 4) (w : BitVec 2)   -- IDIV_SIGNED
  | idivNatural (d : BitVec 7) (a : BitVec 7) (l : BitVec 4) (w : BitVec 2)   -- IDIV_NATURAL
  | iremSigned (d : BitVec 7) (a : BitVec 7) (l : BitVec 4) (w : BitVec 2)   -- IREM_SIGNED
  | iremNatural (d : BitVec 7) (a : BitVec 7) (l : BitVec 4) (w : BitVec 2)   -- IREM_NATURAL
  | shfl (d : BitVec 7) (a : BitVec 7) (m : BitVec 2) (w : BitVec 3) (l : BitVec 4)   -- SHFL
  | bcast (d : BitVec 7) (a : BitVec 7) (s : BitVec 5) (l : BitVec 4)   -- BCAST
  | vote (d : BitVec 4) (a : BitVec 4) (k : BitVec 2) (l : BitVec 4)   -- VOTE
  | voteBallot (d : BitVec 7) (a : BitVec 4) (l : BitVec 4)   -- VOTE_BALLOT
  | matchLanes (d : BitVec 7) (a : BitVec 7) (l : BitVec 4)   -- MATCH
  | reduce (d : BitVec 7) (a : BitVec 7) (s : BitVec 1) (o : BitVec 4) (w : BitVec 2) (l : BitVec 4)   -- REDUCE
  | scanInclusive (d : BitVec 7) (a : BitVec 7) (s : BitVec 1) (o : BitVec 4) (w : BitVec 2) (l : BitVec 4)   -- SCAN_INCLUSIVE
  | scanExclusive (d : BitVec 7) (a : BitVec 7) (s : BitVec 1) (o : BitVec 4) (w : BitVec 2) (l : BitVec 4)   -- SCAN_EXCLUSIVE
  | mma (d : BitVec 7) (a : BitVec 7) (b : BitVec 7) (l : BitVec 4) (sc : BitVec 1) (z : BitVec 1) (sa : BitVec 7) (sb : BitVec 7) (cv : BitVec 3) (ta : BitVec 4) (tb : BitVec 4)   -- MMA
  | mmas (d : BitVec 7) (a : BitVec 7) (b : BitVec 7) (l : BitVec 4) (sc : BitVec 1) (z : BitVec 1) (sa : BitVec 7) (sb : BitVec 7) (cv : BitVec 3) (ta : BitVec 4) (tb : BitVec 4) (pat : BitVec 2)   -- MMAS
  | mtrn (d : BitVec 7) (b : BitVec 7) (l : BitVec 4) (cv : BitVec 3) (t : BitVec 4)   -- MTRN
  | mperm (d : BitVec 7) (b : BitVec 7) (l : BitVec 4) (amt : BitVec 4) (cv : BitVec 3) (t : BitVec 4) (axis : BitVec 1) (mode : BitVec 2)   -- MPERM
  | mrsum (d : BitVec 7) (b : BitVec 7) (l : BitVec 4) (cv : BitVec 3) (t : BitVec 4) (axis : BitVec 1)   -- MRSUM
  | mtok (cv : BitVec 3) (rcv : BitVec 4)   -- MTOK
  | mvt (d : BitVec 7) (a : BitVec 7) (b : BitVec 7) (l : BitVec 4) (bfw : BitVec 1) (z : BitVec 1) (mm : BitVec 4) (kk : BitVec 4) (off : BitVec 13)   -- MVT
  | lds (d : BitVec 7) (b : BitVec 7) (o : BitVec 6) (s : BitVec 3) (l : BitVec 4)   -- LDS
  | ldt (d : BitVec 7) (b : BitVec 7) (o : BitVec 6) (s : BitVec 3) (l : BitVec 4)   -- LDT
  | ldc (d : BitVec 7) (b : BitVec 7) (o : BitVec 6) (s : BitVec 3) (l : BitVec 4)   -- LDC
  | ldx (d : BitVec 7) (b : BitVec 7) (o : BitVec 6) (s : BitVec 3) (l : BitVec 4)   -- LDX
  | st (d : BitVec 7) (b : BitVec 7) (o : BitVec 6) (s : BitVec 3) (p : BitVec 2) (z : BitVec 1)   -- ST
  | atom (d : BitVec 7) (a : BitVec 7) (b : BitVec 7) (l : BitVec 4) (fn : BitVec 2) (sp : BitVec 2) (op : BitVec 4) (t : BitVec 4) (o : BitVec 6)   -- ATOM
  | fence (s : BitVec 3) (o : BitVec 2)   -- FENCE
  | binit (n : BitVec 4) (a : BitVec 7)   -- BINIT
  | barr (d : BitVec 7) (e : BitVec 1) (n : BitVec 4)   -- BARR
  | bexp (e : BitVec 1) (r : BitVec 1) (n : BitVec 4) (a : BitVec 7)   -- BEXP
  | bwait (p : BitVec 4) (a : BitVec 7) (c : BitVec 1) (n : BitVec 4)   -- BWAIT
  | bqry (d : BitVec 7) (c : BitVec 1) (s : BitVec 2) (n : BitVec 4)   -- BQRY
  | cbar (d : BitVec 7) (e : BitVec 1) (n : BitVec 4)   -- CBAR
  | course (p : BitVec 4)   -- COURSE
  | kwait (n : BitVec 7) (m : BitVec 2) (c : BitVec 2)   -- KWAIT
  | srinit (f : BitVec 4) (r : BitVec 2) (a : BitVec 7) (o : BitVec 2) (n : BitVec 3)   -- SRINIT
  | sracq (p : BitVec 4) (a : BitVec 7) (r : BitVec 2)   -- SRACQ
  | srput (x : BitVec 1) (e : BitVec 1) (r : BitVec 2) (a : BitVec 7) (b : BitVec 7)   -- SRPUT
  | srget (p : BitVec 4) (a : BitVec 7) (r : BitVec 2)   -- SRGET
  | srrel (e : BitVec 1) (r : BitVec 2) (a : BitVec 7)   -- SRREL
  | srclose (r : BitVec 2)   -- SRCLOSE
  | cvset (a : BitVec 7) (c : BitVec 3)   -- CVSET
  | sign (c : BitVec 3)   -- SIGN
  | cvwait (c : BitVec 3)   -- CVWAIT
  | lock (a : BitVec 7) (n : BitVec 4)   -- LOCK
  | unlock (a : BitVec 7)   -- UNLOCK
  | cpost (d : BitVec 7) (a : BitVec 7) (l : BitVec 4)   -- CPOST
  | tpost (a : BitVec 7)   -- TPOST
  | freeze (a : BitVec 7) (n : BitVec 4)   -- FREEZE
  | thaw (a : BitVec 7) (n : BitVec 4)   -- THAW
  | rgqry (d : BitVec 7) (a : BitVec 7) (l : BitVec 4)   -- RGQRY
  | gwqry (d : BitVec 7) (a : BitVec 7) (l : BitVec 4)   -- GWQRY
  | br (g : BitVec 4) (n : BitVec 1) (o : BitVec 20)   -- BR
  | call (g : BitVec 4) (n : BitVec 1) (o : BitVec 20)   -- CALL
  | nop   -- NOP
  | yield   -- YIELD
  | exit   -- EXIT
  | ret   -- RET
  | retTrap   -- RET_TRAP
  | jmpr (a : BitVec 7)   -- JMPR
  | trap (c : BitVec 16)   -- TRAP
  | tfence   -- TFENCE
  | bkpt   -- BKPT
  | win (b : BitVec 5)   -- WIN
  | srd (d : BitVec 7) (n : BitVec 6)   -- SRD
  | swr (a : BitVec 7) (n : BitVec 6)   -- SWR
  | fstc (d : BitVec 7)   -- FSTC
  | issueTurn (core : Nat) (slot : Nat)   -- ISSUE_TURN
  | longLatencyWriteLands (core : Nat) (rec : Nat) (grp : Nat) (lane : Nat) (idx : Nat)   -- LONG_LATENCY_WRITE_LANDS
  | barrierWaiterWake (core : Nat) (rec : Nat) (grp : Nat)   -- BARRIER_WAITER_WAKE
  | cbarArrival (core : Nat) (rec : Nat)   -- CBAR_ARRIVAL
  | courseCompletion (grid : Nat)   -- COURSE_COMPLETION
  | ringClosed (core : Nat) (rec : Nat) (ring : Nat)   -- RING_CLOSED
  | matrixOpReady (core : Nat) (rec : Nat) (cv : Nat)   -- MATRIX_OP_READY
  | mtokTakesEffect (core : Nat) (rec : Nat) (cv : Nat)   -- MTOK_TAKES_EFFECT
  | engineExecute (core : Nat)   -- ENGINE_EXECUTE
  | matrixResultLands (core : Nat)   -- MATRIX_RESULT_LANDS
  | lockGrant (die : Nat) (word : Nat)   -- LOCK_GRANT
  | tileBankAccess (die : Nat) (bank : Nat)   -- TILE_BANK_ACCESS
  | peerPortAccess (core : Nat) (bank : Nat)   -- PEER_PORT_ACCESS
  | hodAcceptPacket (core : Nat)   -- HOD_ACCEPT_PACKET
  | ringSlotRead (core : Nat) (q : Nat)   -- RING_SLOT_READ
  | inboxCommand (core : Nat)   -- INBOX_COMMAND
  | copy (core : Nat) (slot : Nat) (n : Nat)   -- COPY
  | gather (core : Nat) (slot : Nat) (n : Nat)   -- GATHER
  | scatter (core : Nat) (slot : Nat) (n : Nat)   -- SCATTER
  | scatred (core : Nat) (slot : Nat) (n : Nat)   -- SCATRED
  | fill (core : Nat) (slot : Nat) (n : Nat)   -- FILL
  | gwbind (core : Nat) (slot : Nat)   -- GWBIND
  | gwfree (core : Nat) (slot : Nat)   -- GWFREE
  | prefetch (core : Nat) (slot : Nat) (n : Nat)   -- PREFETCH
  | atomic (core : Nat) (slot : Nat)   -- ATOMIC
  | fenceCommand (core : Nat) (slot : Nat)   -- FENCE_COMMAND
  | commandCompletion (core : Nat) (slot : Nat)   -- COMMAND_COMPLETION
  | pageFaultResolution (ctx : Nat) (va : Nat)   -- PAGE_FAULT_RESOLUTION
  | holdTimeExpiry (core : Nat) (slot : Nat)   -- HOLD_TIME_EXPIRY
  | commandResume (core : Nat) (slot : Nat)   -- COMMAND_RESUME
  | commandAbandon (core : Nat) (slot : Nat)   -- COMMAND_ABANDON
  | networkAcknowledgement (core : Nat) (slot : Nat)   -- NETWORK_ACKNOWLEDGEMENT
  | sendRetryTimeout (core : Nat) (slot : Nat)   -- SEND_RETRY_TIMEOUT
  | networkPacketReceive (q : Nat) (src : Nat) (job : Nat) (sq : Nat) (mid : Nat) (off : Nat) (total : Nat) (payload : Bytes)   -- NETWORK_PACKET_RECEIVE
  | peerRemoteRequest (endpoint : Nat) (job : Nat) (req : Nat) (addr : Nat) (len : Nat) (op : Nat) (type : Nat) (operand : Nat) (comparand : Nat) (data : Bytes)   -- PEER_REMOTE_REQUEST
  | remoteWriteRefusal (ctx : Nat) (peer : Nat) (addr : Nat)   -- REMOTE_WRITE_REFUSAL
  | sectorFillComplete (die : Nat) (sector : Nat)   -- SECTOR_FILL_COMPLETE
  | l2Eviction (die : Nat) (sector : Nat)   -- L2_EVICTION
  | launchAccept (q : Nat)   -- LAUNCH_ACCEPT
  | gangBind (ctx : Nat)   -- GANG_BIND
  | bindRecordValid (core : Nat) (rec : Nat)   -- BIND_RECORD_VALID
  | bindRecordGo (task : Nat)   -- BIND_RECORD_GO
  | continuationRecordArrival (idx : Nat)   -- CONTINUATION_RECORD_ARRIVAL
  | palletTimerExpiry (ctx : Nat) (node : Nat) (slice : Nat)   -- PALLET_TIMER_EXPIRY
  | watchdogExpiry (task : Nat)   -- WATCHDOG_EXPIRY
  | taskFailure (task : Nat)   -- TASK_FAILURE
  | retire (session : Nat) (node : Nat) (ctx : Nat)   -- RETIRE
  | teamStateRelease (core : Nat) (rec : Nat)   -- TEAM_STATE_RELEASE
  | launchEnd (grid : Nat)   -- LAUNCH_END
  | nodeEnd (ctx : Nat) (node : Nat)   -- NODE_END
  | discardReport (task : Nat)   -- DISCARD_REPORT
  | launchQueueEntryWrite (session : Nat) (q : Nat) (val : BitVec 256)   -- LAUNCH_QUEUE_ENTRY_WRITE
  | unfreeze (session : Nat) (q : Nat)   -- UNFREEZE
  | hodQueueEntryWrite (core : Nat) (q : Nat) (val : BitVec 128)   -- HOD_QUEUE_ENTRY_WRITE
  | create (session : Nat)   -- CREATE
  | contextKeyDerived (ctx : Nat)   -- CONTEXT_KEY_DERIVED
  | teardown (session : Nat)   -- TEARDOWN
  | teardownComplete (ctx : Nat)   -- TEARDOWN_COMPLETE
  | setregion (session : Nat)   -- SETREGION
  | mailboxFreeze (session : Nat)   -- MAILBOX_FREEZE
  | mailboxThaw (session : Nat)   -- MAILBOX_THAW
  | inval (session : Nat)   -- INVAL
  | discard (session : Nat)   -- DISCARD
  | repart (session : Nat)   -- REPART
  | repartTakesEffect (ctx : Nat)   -- REPART_TAKES_EFFECT
  | freezeDrainEnd (ctx : Nat) (idx : Nat)   -- FREEZE_DRAIN_END
  | peerThawAck (ctx : Nat) (idx : Nat) (peer : Nat)   -- PEER_THAW_ACK
  | thawlimitExpiry (ctx : Nat) (idx : Nat)   -- THAWLIMIT_EXPIRY
  | thawCollectionEnd (ctx : Nat) (idx : Nat)   -- THAW_COLLECTION_END
  | gclSessionOpen (owner : Nat)   -- GCL_SESSION_OPEN
  | gclRead (session : Nat) (ch : Nat) (addr : Nat) (len : Nat)   -- GCL_READ
  | gclWrite (session : Nat) (ch : Nat) (addr : Nat) (data : Bytes)   -- GCL_WRITE
  | gclAtomic (session : Nat) (ch : Nat) (addr : Nat) (op : Nat) (size : Nat) (operand : Nat) (comparand : Nat)   -- GCL_ATOMIC
  | gclFence (session : Nat) (ch : Nat)   -- GCL_FENCE
  | gclWindowWrite (session : Nat) (win : Nat) (val : BitVec 128)   -- GCL_WINDOW_WRITE
  | registerWrite (session : Nat) (addr : Nat) (val : Nat)   -- REGISTER_WRITE
  | sharekey (session : Nat)   -- SHAREKEY
  | dropkey (session : Nat)   -- DROPKEY
  | attest (session : Nat)   -- ATTEST
  | getcert (session : Nat)   -- GETCERT
  | stagefw (session : Nat)   -- STAGEFW
  | patrolScrub (unit : Nat) (owner : Nat) (word : Nat)   -- PATROL_SCRUB
  | containment (task : Nat)   -- CONTAINMENT
  | unitFence (kind : Nat) (idx : Nat)   -- UNIT_FENCE
  | linkFlitRetry (link : Nat)   -- LINK_FLIT_RETRY
  | schedulerTakeover   -- SCHEDULER_TAKEOVER
  | dieFault (die : Nat)   -- DIE_FAULT
  | dieTestComplete (die : Nat) (pass : Bool)   -- DIE_TEST_COMPLETE
  | dieReadmit (die : Nat)   -- DIE_READMIT
  | coldReset   -- COLD_RESET
  | warmReset   -- WARM_RESET
  | powerStateRequest (session : Nat) (state : Nat)   -- POWER_STATE_REQUEST
  | p1Entry   -- P1_ENTRY
  | p1Exit   -- P1_EXIT
  | powercap (session : Nat) (val : Nat)   -- POWERCAP
  | thermalStep (die : Nat) (temp : Nat)   -- THERMAL_STEP
  | thermalShutdown   -- THERMAL_SHUTDOWN
  | softError (unit : Nat) (owner : Nat) (word : Nat) (uncorrectable : Bool)   -- SOFT_ERROR
  | remoteReadRefusal (core : Nat) (slot : Nat)   -- REMOTE_READ_REFUSAL
  deriving DecidableEq, Repr

/-- A prefix word (R72): arithmetic (R73) or memory (R74). -/
inductive Pfx where
  | arith (gp : BitVec 4) (gn : BitVec 1) (rnd : BitVec 3) (sat ftz nft : BitVec 1)
  | mem (gp : BitVec 4) (gn : BitVec 1) (order : BitVec 2) (scope : BitVec 3) (cache : BitVec 2) (consume : BitVec 1)
      (offx : BitVec 12)
  deriving DecidableEq, Repr

end Sys2Proof
end

