-- ==== Sys2Proof/WellFormed.lean ====
section
/-!
DEFINITION. WellFormed: which combinations of field values the spec assigns. Three checks, one for each of the fates
of R60 and R61 that a constructor's fields can meet: a reserved code of the instruction word alone, a reserved code
that involves the descriptor, and a reserved field.
-/

namespace Sys2Proof

/-- The fields f to f + n - 1 neither cross from field 119 to field 120 nor pass 127 (R139, R147, R188). -/
def rangeOk (f : BitVec 7) (n : Nat) : Bool :=
  if f.toNat < 120 then f.toNat + n ≤ 120 else f.toNat + n ≤ 128

/-- Width in bits of a type code (R100, R35); 0 for a code that names no type. -/
def typeWidth (c : BitVec 4) : Nat :=
  match c.toNat with
  | 1 | 8 => 64
  | 2 | 9 | 14 => 32
  | 3 | 4 | 10 | 13 => 16
  | 5 | 6 | 11 | 12 => 8
  | 7 => 4
  | _ => 0

/-- The ratio of the two widths of a conversion (R101). -/
def cvtRatio (s t : BitVec 4) : Nat :=
  max (typeWidth s) (typeWidth t) / min (typeWidth s) (typeWidth t)

/-- A pair of types that CVT converts (R100, R101). -/
def cvtCodesOk (s t : BitVec 4) : Bool :=
  typeWidth s != 0 && typeWidth t != 0 && cvtRatio s t != 16

/-- A pair of types that CVTS converts (R101, R103). -/
def cvtsCodesOk (s t : BitVec 4) : Bool :=
  1 ≤ s.toNat && s.toNat ≤ 4 && 5 ≤ t.toNat && t.toNat ≤ 7 && cvtRatio s t != 16

/-- The type pairs of MMA (R136). -/
def mmaTypesOk (ta tb : BitVec 4) : Bool :=
  match ta.toNat with
  | 1 => tb.toNat == 1
  | 3 => tb.toNat == 3
  | 4 => tb.toNat == 4
  | 5 | 6 => tb.toNat == 5 || tb.toNat == 6
  | 7 => tb.toNat == 7
  | 11 | 12 => tb.toNat == 11 || tb.toNat == 12
  | _ => false

/-- The types that take S12 scales (R136). -/
def mmaScalable (ta : BitVec 4) : Bool := 5 ≤ ta.toNat && ta.toNat ≤ 7

/-- The tile types of MCON (R143). -/
def mconTypeOk (t : BitVec 4) : Bool := t.toNat == 1 || t.toNat == 2 || t.toNat == 9 || t.toNat == 14

/-- TYPE and OP of ATOM (R166). -/
def atomPairOk (t op : BitVec 4) : Bool :=
  match t.toNat with
  | 0 => 2 ≤ op.toNat && op.toNat ≤ 8
  | 8 | 9 | 14 => 1 ≤ op.toNat && op.toNat ≤ 8
  | 1 | 2 | 3 | 4 => (1 ≤ op.toNat && op.toNat ≤ 3) || op.toNat == 7 || op.toNat == 8
  | _ => false

/-- Registers of an accumulator tile (R125, R127). -/
def tileRegs (t : BitVec 4) : Nat := if t.toNat = 1 then 8 else 4

/-- A multiple of `n`. -/
def aligned (f : BitVec 7) (n : Nat) : Bool := f.toNat % n == 0

/-- Instructions of two words (R58). -/
def Instr.isPair : Instr → Bool
  | .mma .. | .mmas .. | .mtrn .. | .mperm .. | .mrsum .. | .mtok .. | .mvt .. | .atom .. => true
  | _ => false

/-- Words of an instruction without its prefix (R58). -/
def Instr.words (i : Instr) : Nat := if i.isPair then 2 else 1

/-- No code of the instruction word alone is reserved (R60, R61 item 4). -/
def Instr.wordCodeOk : Instr → Bool
  | .iaddc _ _ w _ | .isubb _ _ w _ => w.toNat ≤ 3
  | .ineg _ _ _ w | .iabs _ _ _ w => w.toNat ≤ 4
  | .popc _ _ w | .clz _ _ w | .ctz _ _ w | .brev _ _ w => w.toNat ≤ 4
  | .sel _ _ w _ => w.toNat ≤ 4
  | .shfl _ _ _ w _ => w.toNat ≤ 4
  | .cvt _ _ _ s t => cvtCodesOk s t
  | .cvts _ _ _ s t => cvtsCodesOk s t
  | .exp2 _ _ _ t | .log2 _ _ _ t | .rcp _ _ _ t | .rsq _ _ _ t | .sin _ _ _ t | .cos _ _ _ t | .tanh _ _ _ t
  | .sigm _ _ _ t | .sftp _ _ _ t => t.toNat != 0
  | .vote _ _ k _ => k.toNat != 3
  | .reduce _ _ _ o _ _ | .scanInclusive _ _ _ o _ _ | .scanExclusive _ _ _ o _ _ => o.toNat ≤ 10
  | .st _ _ _ s p _ => s.toNat ≤ 4 && p.toNat ≤ 2
  | .bqry _ _ s _ => s.toNat ≤ 2
  | .srinit _ _ _ _ n => n.toNat ≤ 6
  | .atom _ _ _ _ fn .. => fn.toNat ≤ 1
  | _ => true

/-- No code that involves the descriptor is reserved (R61 item 6). -/
def Instr.descCodeOk : Instr → Bool
  | .mma _ _ _ _ sc _ _ _ _ ta tb => mmaTypesOk ta tb && (sc == 0#1 || mmaScalable ta)
  | .mmas _ _ _ _ sc _ _ _ _ ta tb pat => mmaTypesOk ta tb && ta.toNat != 1 && (sc == 0#1 || mmaScalable ta) && pat.toNat ≤ 1
  | .mtrn _ _ _ _ t | .mrsum _ _ _ _ t _ => mconTypeOk t
  | .mperm _ _ _ _ _ t _ mode => mconTypeOk t && mode.toNat != 3
  | .mtok _ rcv => rcv.toNat ≤ 8
  | .atom _ _ _ _ _ sp op t _ => sp.toNat ≤ 2 && atomPairOk t op
  | _ => true

/-- Registers of the A block of MMAS: four of kept values and the metadata (R140). -/
def mmasARegs (ta : BitVec 4) (pat : BitVec 2) : Nat := if ta.toNat = 7 ∧ pat.toNat = 0 then 6 else 5

/-- A trailer field does not name a run temporary (R17). -/
def trlFieldOk (f : BitVec 7) : Bool := f.toNat < 120 || f.toNat == 127

/-- No field that the spec restricts holds a forbidden value (R60, R61 item 7, DETAIL 1). -/
def Instr.fieldOk : Instr → Bool
  | .trl f s t a =>
    trlFieldOk f && trlFieldOk s && trlFieldOk t &&
      (a == 0#1 || (f.toNat == 127 && s.toNat == 127 && t.toNat == 127))
  | .cvt _ _ p s t => p.toNat < cvtRatio s t
  | .cvts d _ p s t => p.toNat < cvtRatio s t && aligned d 2
  | .mma d a b _ sc _ sa sb _ ta _ =>
    aligned d (tileRegs ta) && aligned a 4 && aligned b 4 && rangeOk d (tileRegs ta) && rangeOk a 4 && rangeOk b 4 &&
      (sc == 1#1 || (sa.toNat == 0 && sb.toNat == 0))
  | .mmas d a b _ sc _ sa sb _ ta _ pat =>
    aligned d 4 && aligned a 4 && aligned b 8 && rangeOk d 4 && rangeOk a (mmasARegs ta pat) && rangeOk b 8 &&
      (sc == 1#1 || (sa.toNat == 0 && sb.toNat == 0))
  | .mtrn d b _ _ t | .mrsum d b _ _ t _ =>
    aligned d (tileRegs t) && aligned b (tileRegs t) && rangeOk d (tileRegs t) && rangeOk b (tileRegs t)
  | .mperm d b _ amt _ t _ mode =>
    aligned d (tileRegs t) && aligned b (tileRegs t) && rangeOk d (tileRegs t) && rangeOk b (tileRegs t) &&
      (mode.toNat != 0 || amt.toNat == 0)
  | .mvt d a _ _ _ _ mm kk _ => rangeOk d (mm.toNat / 2 + 1) && rangeOk a (kk.toNat / 2 + 1)
  | .lds d _ _ s _ | .ldt d _ _ s _ | .ldc d _ _ s _ | .ldx d _ _ s _ => s.toNat != 4 || aligned d 2
  | .st d _ _ s _ z => (s.toNat != 4 || aligned d 2) && (z == 0#1 || d.toNat == 0)
  | .atom d _ _ l fn _ op _ _ => fn == 0#2 || (l.toNat == 0 && (op.toNat == 8 || d.toNat == 0))
  | .fence s _ => s.toNat ≤ 5
  | .srinit f _ _ _ n => f.toNat + 2 * (n.toNat + 2) - 1 ≤ 15
  | .srput x _ _ _ b => x == 1#1 || b.toNat == 0
  | .cpost _ a _ | .tpost a => rangeOk a 8
  | _ => true

/-- The steps of the other agents: the rows of the opcode table that have no words. -/
def Instr.isEvent : Instr → Bool
  | .issueTurn .. | .longLatencyWriteLands .. | .barrierWaiterWake .. | .cbarArrival .. | .courseCompletion ..
    | .ringClosed .. | .matrixOpReady .. | .mtokTakesEffect .. | .engineExecute .. | .matrixResultLands ..
    | .lockGrant .. | .tileBankAccess .. | .peerPortAccess .. | .hodAcceptPacket .. | .ringSlotRead ..
    | .inboxCommand .. | .copy .. | .gather .. | .scatter .. | .scatred .. | .fill .. | .gwbind .. | .gwfree ..
    | .prefetch .. | .atomic .. | .fenceCommand .. | .commandCompletion .. | .pageFaultResolution ..
    | .holdTimeExpiry .. | .commandResume .. | .commandAbandon .. | .networkAcknowledgement ..
    | .sendRetryTimeout .. | .networkPacketReceive .. | .peerRemoteRequest .. | .remoteWriteRefusal ..
    | .sectorFillComplete .. | .l2Eviction .. | .launchAccept .. | .gangBind .. | .bindRecordValid ..
    | .bindRecordGo .. | .continuationRecordArrival .. | .palletTimerExpiry .. | .watchdogExpiry ..
    | .taskFailure .. | .retire .. | .teamStateRelease .. | .launchEnd .. | .nodeEnd .. | .discardReport ..
    | .launchQueueEntryWrite .. | .unfreeze .. | .hodQueueEntryWrite .. | .create .. | .contextKeyDerived ..
    | .teardown .. | .teardownComplete .. | .setregion .. | .mailboxFreeze .. | .mailboxThaw .. | .inval ..
    | .discard .. | .repart .. | .repartTakesEffect .. | .freezeDrainEnd .. | .peerThawAck .. | .thawlimitExpiry ..
    | .thawCollectionEnd .. | .gclSessionOpen .. | .gclRead .. | .gclWrite .. | .gclAtomic .. | .gclFence ..
    | .gclWindowWrite .. | .registerWrite .. | .sharekey .. | .dropkey .. | .attest .. | .getcert .. | .stagefw ..
    | .patrolScrub .. | .containment .. | .unitFence .. | .linkFlitRetry .. | .schedulerTakeover | .dieFault ..
    | .dieTestComplete .. | .dieReadmit .. | .coldReset | .warmReset | .powerStateRequest .. | .p1Entry | .p1Exit
    | .powercap .. | .thermalStep .. | .thermalShutdown | .softError .. | .remoteReadRefusal .. => true
  | _ => false

/-- A well-formed instruction: its words are a valid instruction of R56 to R61. -/
def Instr.wf (i : Instr) : Bool := !i.isEvent && i.wordCodeOk && i.descCodeOk && i.fieldOk

/-- An arithmetic prefix fits the majors 0x03 to 0x12, 0x19, 0x1A and 0x1C, a memory prefix 0x13 to 0x18 (R72). -/
def Pfx.fits : Pfx → Nat → Bool
  | .arith .., m => (0x03 ≤ m && m ≤ 0x12) || m == 0x19 || m == 0x1A || m == 0x1C
  | .mem .., m => 0x13 ≤ m && m ≤ 0x18

/-- Rounding code 7, scope codes 6 and 7 and cache policy 3 are forbidden (R60, R73, R74). -/
def Pfx.fieldsOk : Pfx → Bool
  | .arith _ _ rnd _ _ _ => rnd.toNat != 7
  | .mem _ _ _ scope cache _ _ => scope.toNat ≤ 5 && cache.toNat != 3

end Sys2Proof
end

