-- ==== Sys2Proof/Machine/Float.lean ====
section
/-!
DEFINITION. Float: the number formats of R32 to R35, exact values, rounding in every mode (R36 to R39, R44), special
inputs of conversions (R40, R42), and the arithmetic that is exact before its one rounding. Magnitudes are natural
numbers and exponents integers, so nothing is lost before the rounding.
-/

namespace Sys2Proof.Machine

/-- The floating-point formats (R32). -/
inductive Fmt where
  | fp64 | fp32 | fp16 | bf16 | e4m3 | e5m2 | e2m1
  deriving DecidableEq, Repr

/-- The format of a type code (R32). -/
def Fmt.ofCode : Nat → Option Fmt
  | 1 => some .fp64
  | 2 => some .fp32
  | 3 => some .fp16
  | 4 => some .bf16
  | 5 => some .e4m3
  | 6 => some .e5m2
  | 7 => some .e2m1
  | _ => none

/-- The format of a 2-bit float type code FT (R84). -/
def Fmt.ofFt (t : BitVec 2) : Fmt :=
  match t with
  | 0#2 => .fp64
  | 1#2 => .fp32
  | 2#2 => .fp16
  | _ => .bf16

/-- Exponent bits, fraction bits, bias (R32). -/
def Fmt.expBits : Fmt → Nat
  | .fp64 => 11 | .fp32 => 8 | .fp16 => 5 | .bf16 => 8 | .e4m3 => 4 | .e5m2 => 5 | .e2m1 => 2
/-- Fraction bits (R32). -/
def Fmt.frac : Fmt → Nat
  | .fp64 => 52 | .fp32 => 23 | .fp16 => 10 | .bf16 => 7 | .e4m3 => 3 | .e5m2 => 2 | .e2m1 => 1
/-- Exponent bias (R32). -/
def Fmt.bias : Fmt → Nat
  | .fp64 => 1023 | .fp32 => 127 | .fp16 => 15 | .bf16 => 127 | .e4m3 => 7 | .e5m2 => 15 | .e2m1 => 1
/-- Width of an encoding (R32). -/
def Fmt.width (f : Fmt) : Nat := 1 + f.expBits + f.frac

/-- FTZ acts on FP64, FP32, FP16 and BF16 only (R36). -/
def Fmt.flushes : Fmt → Bool
  | .fp64 | .fp32 | .fp16 | .bf16 => true
  | _ => false

/-- The encoding of the largest finite magnitude (R32). -/
def Fmt.maxBits : Fmt → Nat
  | .fp64 => 0x7FEFFFFFFFFFFFFF | .fp32 => 0x7F7FFFFF | .fp16 => 0x7BFF | .bf16 => 0x7F7F
  | .e4m3 => 0x7E | .e5m2 => 0x7B | .e2m1 => 0x7

/-- What an infinity of the overflow table reads as: E4M3 has the NaN 0x7F there (R39). -/
def Fmt.infBits (f : Fmt) (neg : Bool) : Nat :=
  match f with
  | .e4m3 => 0x7F
  | .e2m1 => if neg then 0xF else 0x7
  | f => (if neg then 2 ^ (f.width - 1) else 0) + (2 ^ f.expBits - 1) * 2 ^ f.frac

/-- The canonical NaN (R35); an unscaled E2M1 takes the code 0x0 instead. -/
def Fmt.nanBits : Fmt → Nat
  | .fp64 => 0x7FF8000000000000 | .fp32 => 0x7FC00000 | .fp16 => 0x7E00 | .bf16 => 0x7FC0
  | .e4m3 => 0x7F | .e5m2 => 0x7E | .e2m1 => 0

/-- Exponent of the weight of the smallest subnormal (R32). -/
def Fmt.emin (f : Fmt) : Int := 1 - (f.bias : Int) - (f.frac : Int)

/-- The sticky flags (R50). -/
abbrev FFlags := BitVec 6
/-- Invalid operation. -/
def flagIV : FFlags := 1#6
/-- Division by zero. -/
def flagDZ : FFlags := 2#6
/-- Overflow. -/
def flagOF : FFlags := 4#6
/-- Underflow. -/
def flagUF : FFlags := 8#6
/-- Inexact. -/
def flagNX : FFlags := 16#6
/-- Non-finite result. -/
def flagNF : FFlags := 32#6

/-- A decoded value: a NaN (signalling or not), an infinity, or neg x num x 2^exp (R32). -/
inductive FVal where
  | nan (sig : Bool)
  | inf (neg : Bool)
  | fin (neg : Bool) (num : Nat) (exp : Int)
  deriving DecidableEq, Repr

/-- Decoding an encoding (R32, R33, R35). -/
def Fmt.decode (f : Fmt) (b : Nat) : FVal :=
  let m := b % 2 ^ f.frac
  let e := b / 2 ^ f.frac % 2 ^ f.expBits
  let neg := b / 2 ^ (f.width - 1) % 2 == 1
  let normal := FVal.fin neg (2 ^ f.frac + m) ((e : Int) - f.bias - f.frac)
  if e = 0 then .fin neg m f.emin
  else if e = 2 ^ f.expBits - 1 then
    match f with
    | .e2m1 => normal
    | .e4m3 => if m = 7 then .nan false else normal
    | .e5m2 => if m = 0 then .inf neg else .nan false
    | _ => if m = 0 then .inf neg else .nan (m < 2 ^ (f.frac - 1))
  else normal

/-- A subnormal encoding: exponent field 0 and a non-zero fraction. -/
def Fmt.isSubnormal (f : Fmt) (b : Nat) : Bool :=
  b / 2 ^ f.frac % 2 ^ f.expBits == 0 && b % 2 ^ f.frac != 0

/-- An operand as an instruction reads it (the helper fin of R83): FTZ by R36, and IV for a signalling NaN. -/
def Fmt.read (f : Fmt) (ftz : Bool) (b : Nat) : FVal × FFlags :=
  match f.decode b with
  | .nan sig => (.nan sig, if sig then flagIV else 0)
  | .fin neg num exp => if ftz && f.flushes && f.isSubnormal b then (.fin neg 0 f.emin, 0) else (.fin neg num exp, 0)
  | v => (v, 0)

/-- A value before its rounding: a NaN, an infinity, or the exact rational neg x num / den x 2^exp. -/
inductive Exact where
  | nan
  | inf (neg : Bool)
  | rat (neg : Bool) (num den : Nat) (exp : Int)
  deriving DecidableEq, Repr

/-- The value read, as an exact value. -/
def FVal.toExact : FVal → Exact
  | .nan _ => .nan
  | .inf n => .inf n
  | .fin n num exp => .rat n num 1 exp

/-- 2^e as a factor of a natural number, rounded down for negative e. -/
def scaleNat (n : Nat) (e : Int) : Nat := if e ≥ 0 then n * 2 ^ e.toNat else n / 2 ^ (-e).toNat

/-- floor(log2(num / den x 2^exp)) for a positive value. -/
def ilog2 (num den : Nat) (exp : Int) : Int :=
  let d : Int := (Nat.log2 num : Int) - (Nat.log2 den : Int)
  let ge := if d ≥ 0 then den * 2 ^ d.toNat ≤ num else den ≤ num * 2 ^ (-d).toNat
  (if ge then d else d - 1) + exp

/-- Whole part, remainder and divisor of num / den x 2^(exp - q): the multiples of 2^q in the value. -/
def unitsAt (num den : Nat) (exp q : Int) : Nat × Nat × Nat :=
  let s := exp - q
  let n := if s ≥ 0 then num * 2 ^ s.toNat else num
  let d := if s ≥ 0 then den else den * 2 ^ (-s).toNat
  (n / d, n % d, d)

/-- The modes of a rounding: code (R38), saturation, flush, the random word of SR, and the exponent of the source's
last significand bit for a conversion (R44). -/
structure Rounding where
  rm : Nat
  sat : Bool
  ftz : Bool
  rnd : Nat
  srcUnit : Option Int
  deriving DecidableEq, Repr

/-- Whether the magnitude is taken up: k whole units of 2^q, remainder r of d (R38, R44). -/
def roundsUp (m : Rounding) (neg : Bool) (k r d : Nat) (q : Int) : Bool :=
  match m.rm with
  | 0 => decide (2 * r > d) || (decide (2 * r = d) && k % 2 == 1)
  | 1 => false
  | 2 => neg && r != 0
  | 3 => !neg && r != 0
  | 4 => decide (2 * r ≥ d)
  | _ =>
    let disc := match m.srcUnit with
      | none => 32
      | some u => (q - u).toNat
    let w := min disc 32
    decide (r * 2 ^ w / d + m.rnd / 2 ^ (32 - w) ≥ 2 ^ w)

/-- The encoding of k x 2^q, for k at most 2^(frac + 1) and q at least emin (R32). -/
def Fmt.encodeMag (f : Fmt) (k : Nat) (q : Int) : Nat :=
  let (k, q) := if k = 2 ^ (f.frac + 1) then (2 ^ f.frac, q + 1) else (k, q)
  if k < 2 ^ f.frac then k
  else (q + f.frac + f.bias).toNat * 2 ^ f.frac + (k - 2 ^ f.frac)

/-- The sign bit of an encoding. -/
def Fmt.signBit (f : Fmt) (neg : Bool) : Nat := if neg then 2 ^ (f.width - 1) else 0

/-- Whether an encoding is an infinity or a NaN. -/
def Fmt.nonFinite (f : Fmt) (b : Nat) : Bool :=
  match f.decode b with
  | .fin .. => false
  | _ => true

/-- NF for an encoding that is non-finite (R50). -/
def Fmt.nfFlag (f : Fmt) (b : Nat) : FFlags := if f.nonFinite b then flagNF else 0

/-- The result of an overflow (R39): `up` says whether SR rounded up. -/
def Fmt.overflow (f : Fmt) (m : Rounding) (neg up : Bool) : Nat × FFlags :=
  let inf := match m.rm with
    | 0 | 4 => true
    | 1 => false
    | 2 => neg
    | 3 => !neg
    | _ => up
  let b := if inf && !m.sat && f != .e2m1 then f.infBits neg else f.signBit neg + f.maxBits
  (b, flagOF ||| flagNX ||| f.nfFlag b)

/-- The value of the largest finite magnitude is num x 2^exp. -/
def Fmt.maxValue (f : Fmt) : Nat × Int :=
  match f.decode f.maxBits with
  | .fin _ n e => (n, e)
  | _ => (0, 0)

/-- num1 x 2^e1 > num2 x 2^e2. -/
def magGt (n1 : Nat) (e1 : Int) (n2 : Nat) (e2 : Int) : Bool :=
  if e1 ≥ e2 then decide (n1 * 2 ^ (e1 - e2).toNat > n2) else decide (n1 > n2 * 2 ^ (e2 - e1).toNat)

/-- Rounding a non-zero finite exact value into a format (R37 to R39, R44): the encoding and the flags. -/
def Fmt.roundRat (f : Fmt) (m : Rounding) (neg : Bool) (num den : Nat) (exp : Int) : Nat × FFlags :=
  let qu := ilog2 num den exp - f.frac
  let (ku, ru, du) := unitsAt num den exp qu
  let up := roundsUp m neg ku ru du qu
  let ku' := if up then ku + 1 else ku
  let (mn, me) := f.maxValue
  if magGt ku' qu mn me then f.overflow m neg up
  else
    let tiny := magGt 1 (1 - (f.bias : Int)) ku' qu
    if tiny && m.ftz && f.flushes then (f.signBit neg, flagUF ||| flagNX)
    else
      let q := if qu < f.emin then f.emin else qu
      let (k, r, d) := unitsAt num den exp q
      let k' := if roundsUp m neg k r d q then k + 1 else k
      let b := f.signBit neg + f.encodeMag k' q
      (b, (if r != 0 then flagNX else 0) ||| (if tiny && r != 0 then flagUF else 0))

/-- Rounding into a format (the helper fround of R83), with the special inputs of a conversion into an 8-bit or 4-bit
float (R40) and the canonical NaN (R35). -/
def Fmt.round (f : Fmt) (m : Rounding) (v : Exact) : Nat × FFlags :=
  match v with
  | .nan => if f = .e2m1 then (0, flagIV) else (f.nanBits, flagNF)
  | .inf neg =>
    match f with
    | .e4m3 => if m.sat then (f.signBit neg + f.maxBits, flagOF ||| flagNX) else (f.nanBits, flagNF)
    | .e5m2 => if m.sat then (f.signBit neg + f.maxBits, flagOF ||| flagNX) else (f.infBits neg, flagNF)
    | .e2m1 => (f.signBit neg + f.maxBits, flagOF ||| flagNX)
    | f => (f.infBits neg, flagNF)
  | .rat neg num den exp => if num = 0 then (f.signBit neg, 0) else f.roundRat m neg num den exp

/-- The exponent of the last significand bit of an encoding (u of R44); an encoding of zero has its subnormal's. -/
def Fmt.unitOf (f : Fmt) (b : Nat) : Int :=
  match f.decode b with
  | .fin _ _ e => e
  | _ => 0

/-- The exact sum of two finite values as a signed magnitude at a common exponent. -/
def sumAt (n1 : Bool) (m1 : Nat) (e1 : Int) (n2 : Bool) (m2 : Nat) (e2 : Int) : Int × Int :=
  let e := min e1 e2
  let a : Int := m1 * 2 ^ (e1 - e).toNat
  let b : Int := m2 * 2 ^ (e2 - e).toNat
  ((if n1 then -a else a) + (if n2 then -b else b), e)

/-- Exact addition with the special cases of R97; `rdn` gives the sign of an exact zero of unlike signs. -/
def exactAdd (rdn : Bool) (a b : Exact) : Exact × FFlags :=
  match a, b with
  | .nan, _ | _, .nan => (.nan, 0)
  | .inf x, .inf y => if x = y then (.inf x, 0) else (.nan, flagIV)
  | .inf x, _ => (.inf x, 0)
  | _, .inf y => (.inf y, 0)
  | .rat n1 m1 d1 e1, .rat n2 m2 d2 e2 =>
    let (v, e) := sumAt n1 (m1 * d2) e1 n2 (m2 * d1) e2
    if v = 0 then (.rat (if n1 = n2 then n1 else rdn) 0 1 0, 0)
    else (.rat (decide (v < 0)) v.natAbs (d1 * d2) e, 0)

/-- Exact multiplication with the special cases of R97. -/
def exactMul (a b : Exact) : Exact × FFlags :=
  match a, b with
  | .nan, _ | _, .nan => (.nan, 0)
  | .inf x, .inf y => (.inf (x != y), 0)
  | .inf x, .rat n num _ _ => if num = 0 then (.nan, flagIV) else (.inf (x != n), 0)
  | .rat n num _ _, .inf y => if num = 0 then (.nan, flagIV) else (.inf (n != y), 0)
  | .rat n1 m1 d1 e1, .rat n2 m2 d2 e2 => (.rat (n1 != n2) (m1 * m2) (d1 * d2) (e1 + e2), 0)

/-- Exact negation. -/
def exactNeg : Exact → Exact
  | .nan => .nan
  | .inf n => .inf (!n)
  | .rat n m d e => .rat (!n) m d e

/-- Exact division with the special cases of R107: x / 0 is an infinity with DZ, 0 / 0 and inf / inf are NaN with IV. -/
def exactDiv (a b : Exact) : Exact × FFlags :=
  match a, b with
  | .nan, _ | _, .nan => (.nan, 0)
  | .inf _, .inf _ => (.nan, flagIV)
  | .inf x, .rat n _ _ _ => (.inf (x != n), 0)
  | .rat n _ _ _, .inf y => (.rat (n != y) 0 1 0, 0)
  | .rat n1 m1 d1 e1, .rat n2 m2 d2 e2 =>
    if m2 = 0 then (if m1 = 0 then (.nan, flagIV) else (.inf (n1 != n2), flagDZ))
    else (.rat (n1 != n2) (m1 * d2) (d1 * m2) (e1 - e2), 0)

/-- The largest r with r * r at most n, bit by bit from bit i - 1 down. -/
def isqrtFrom (n : Nat) : Nat → Nat → Nat
  | 0, r => r
  | i + 1, r => if (r + 2 ^ i) * (r + 2 ^ i) ≤ n then isqrtFrom n i (r + 2 ^ i) else isqrtFrom n i r

/-- The integer square root. -/
def isqrt (n : Nat) : Nat := isqrtFrom n (Nat.log2 n / 2 + 1) 0

/-- The square root of num / den x 2^exp as a rational: exact when it is one, otherwise half a unit above a root of at
least `guard` bits, which no rounding of fewer bits can tell from the exact root. -/
def exactSqrt (guard num den : Nat) (exp : Int) : Exact :=
  if num = 0 then .rat false 0 1 0
  else
    let odd := exp % 2 != 0
    let num := if odd then num * 2 else num
    let exp := if odd then exp - 1 else exp
    let s := guard + Nat.log2 den / 2 + 1
    let n := num * den * 2 ^ (2 * s)
    let r := isqrt n
    if r * r = n then .rat false r (den * 2 ^ s) (exp / 2)
    else .rat false (2 * r + 1) (2 * den * 2 ^ s) (exp / 2)

/-- Comparison of two decoded values: none when one is a NaN (R99); -0 equals +0. -/
def FVal.cmp (a b : FVal) : Option Ordering :=
  match a, b with
  | .nan _, _ | _, .nan _ => none
  | .inf x, .inf y => some (if x = y then .eq else if x then .lt else .gt)
  | .inf x, _ => some (if x then .lt else .gt)
  | _, .inf y => some (if y then .gt else .lt)
  | .fin n1 m1 e1, .fin n2 m2 e2 =>
    let d := (sumAt n1 m1 e1 (!n2) m2 e2).1
    some (if d < 0 then .lt else if d = 0 then .eq else .gt)

/-- FMIN and FMAX on encodings (R99): the other operand when one is a NaN, -0 below +0, NF for a non-finite result. -/
def Fmt.minMax (f : Fmt) (ftz isMax : Bool) (a b : Nat) : Nat × FFlags :=
  let (va, fa) := f.read ftz a
  let (vb, fb) := f.read ftz b
  let enc := fun (v : FVal) (raw : Nat) =>
    match v with
    | .fin neg num _ => if num = 0 then f.signBit neg else raw
    | _ => raw
  let r := match va, vb with
    | .nan _, .nan _ => f.nanBits
    | .nan _, _ => enc vb b
    | _, .nan _ => enc va a
    | _, _ =>
      let less := match va.cmp vb with
        | some .lt => true
        | some .eq => decide (a / 2 ^ (f.width - 1) % 2 = 1)
        | _ => false
      if less != isMax then enc va a else enc vb b
  (r, fa ||| fb ||| f.nfFlag r)

/-- Signed reading of the low w bits. -/
def sgn (w n : Nat) : Int := if n % 2 ^ w < 2 ^ (w - 1) then (n % 2 ^ w : Nat) else (n % 2 ^ w : Nat) - 2 ^ w

/-- The low w bits of an integer. -/
def wrap (w : Nat) (v : Int) : Nat := (v % (2 ^ w : Nat)).toNat

/-- The range of an integer type: signed or natural at width w (R54). -/
def intRange (signed : Bool) (w : Nat) : Int × Int :=
  if signed then (-(2 ^ (w - 1) : Nat), (2 ^ (w - 1) : Nat) - 1) else (0, (2 ^ w : Nat) - 1)

/-- Clamping into a range. -/
def clampInt (r : Int × Int) (v : Int) : Int := min (max v r.1) r.2

/-- The integer type codes: INT64, INT32, INT16, INT8 are signed, NAT8, NAT16, NAT32 natural. -/
def intSigned (code : Nat) : Bool := 8 ≤ code && code ≤ 11

/-- Rounding an exact value to an integer in a mode, with its inexactness (R42). -/
def roundToInt (m : Rounding) (neg : Bool) (num den : Nat) (exp : Int) : Int × Bool :=
  let (k, r, d) := unitsAt num den exp 0
  let k' := if roundsUp m neg k r d 0 then k + 1 else k
  (if neg then -(k' : Int) else k', r != 0)

/-- Float to integer (R42). -/
def floatToInt (m : Rounding) (signed : Bool) (w : Nat) (v : FVal) : Nat × FFlags :=
  let rg := intRange signed w
  match v with
  | .nan _ => (0, flagIV)
  | .inf neg => (wrap w (if neg then rg.1 else rg.2), flagIV)
  | .fin neg num exp =>
    let (x, inexact) := roundToInt m neg num 1 exp
    if x < rg.1 then (wrap w rg.1, flagIV)
    else if x > rg.2 then (wrap w rg.2, flagIV)
    else (wrap w x, if inexact then flagNX else 0)

/-- One element of CVT (R102): from type code s to type code t. A float source is read by fin, an integer source is
exact; the unit of a conversion's source is that of R44. -/
def cvtElem (m : Rounding) (s t : Nat) (x : Nat) : Nat × FFlags :=
  match Fmt.ofCode s, Fmt.ofCode t with
  | some fs, some ft =>
    let (v, fl) := fs.read m.ftz x
    let (b, fl') := ft.round { m with srcUnit := some (fs.unitOf x) } v.toExact
    (b, fl ||| fl')
  | some fs, none =>
    let (v, _) := fs.read m.ftz x
    floatToInt { m with srcUnit := some (fs.unitOf x) } (intSigned t) (typeWidth (BitVec.ofNat 4 t)) v
  | none, some ft =>
    let w := typeWidth (BitVec.ofNat 4 s)
    let n : Int := if intSigned s then sgn w x else (x % 2 ^ w : Nat)
    ft.round { m with srcUnit := some 0 } (.rat (decide (n < 0)) n.natAbs 1 0)
  | none, none =>
    let w := typeWidth (BitVec.ofNat 4 s)
    let w' := typeWidth (BitVec.ofNat 4 t)
    let n : Int := if intSigned s then sgn w x else (x % 2 ^ w : Nat)
    (wrap w' (if m.sat then clampInt (intRange (intSigned t) w') n else n), 0)

/-- A conversion between two integer types never rounds and never steps the generator (R43, R102). -/
def cvtRounds (s t : Nat) : Bool := (Fmt.ofCode s).isSome || (Fmt.ofCode t).isSome

/-- An S12 scale (R34): its value num x 2^exp, or none for the NaN scale. -/
def s12Value (b : Nat) : Option (Nat × Int) :=
  let fr := b % 16
  let e := b / 16 % 256
  if e = 255 then none
  else if e = 0 then some (fr, -131)
  else some (16 + fr, (e : Int) - 131)

/-- The smallest finite S12 scale not below num / den x 2^exp, or the largest finite scale (R103). -/
def s12Above (num den : Nat) (exp : Int) : Nat :=
  if num = 0 then 0
  else
    let l := ilog2 num den exp
    let q : Int := max (l - 4) (-131)
    let (k, r, _) := unitsAt num den exp q
    let k := if r = 0 then k else k + 1
    let (k, q) := if k = 32 then (16, q + 1) else (k, q)
    let e := q + 131
    if e ≤ 0 then (if k < 16 then k else 16)
    else if e > 254 then 0xFEF
    else e.toNat * 16 + (k - 16)

/-- The largest element value L of a block-scaled type (R103). -/
def scaledMax (t : Nat) : Nat :=
  match t with
  | 5 => 448
  | 6 => 57344
  | _ => 6

/-- The step of the stochastic generator (R43). -/
def seedStep (s : Word) : Word := s * 0x5851F42D4C957F2D + 0x14057B7EF767814F

/-- The random word of a state (R43). -/
def seedRnd (s : Word) : Nat := (s >>> 32).toNat

end Sys2Proof.Machine
end

