-- ==== Sys2Proof/Config.lean ====
section
/-!
DEFINITION. Config: what an implementation fixes and the spec leaves open. Every free value is an opaque constant with
no body, applied to the operands it depends on or to the counter State.tick, so that nothing can be proved of its
value: a statement that mentions one holds for every value it may have.
-/

namespace Sys2Proof.Config

/-- Compute dies of the package (R2). -/
def dies : Nat := 4
/-- Cores of a die (R2): 8 columns by 6 rows. -/
def coresPerDie : Nat := 48
/-- Cores of the package (R2). -/
def cores : Nat := 192
/-- Issue slots of a core (R7). -/
def slots : Nat := 4
/-- Team records of a core (R200). -/
def teamRecords : Nat := 48

/-- Bytes of second-tier memory (R3, R5, R361): the whole capacity of a populated package. -/
def secondTierBytes : Nat := 4096 * 10 ^ 9
/-- Bytes of HBM (R3, R5): twelve stacks of 64 GB. -/
def hbmBytes : Nat := 768 * 10 ^ 9

/-- What a byte of memory that is stored under one key reads as under another (R403, R404): by the stored key's number, when it was first used
there, the reading key's number and the address. -/
opaque scramble : Nat → Nat → Nat → Nat → BitVec 8
/-- Lanes that a network port (0x700 + port) or a mortar link (0x800 + link) has (R402). -/
opaque linkLanes : Nat → Nat
/-- Which of the candidates within the bound a special function returns (R107), by function code, format (its largest finite encoding) and
input. -/
opaque sfuPick : Nat → Nat → Nat → Nat
/-- Cycles an instruction spends beyond those of R124 and R195: interlocks, conflicts and waits. -/
opaque extraCycles : Nat → Nat
/-- Whether a pending write that the trailer did not name reads as the new value (R70), by tick, lane and the write's number. -/
opaque unnamedRead : Nat → Nat → Nat → Bool
/-- Whether an element that its command has overwritten reads as it stood before the command (R229, R234), by tick, element and address. -/
opaque readsOld : Nat → Nat → Nat → Bool
/-- Whether a translation buffer still holds an entry that INVAL has not yet removed (R333, R335). -/
opaque tlbKeeps : Nat → Nat → Bool
/-- The order in which the dies drain (R256), as the number of a permutation. -/
opaque drainOrder : Nat → Nat
/-- A key of the keystone derived for an owner (R403, R404). -/
opaque derivedKey : Nat → Nat → BitVec 256
/-- A hash that the keystone computes (R405 to R409). -/
opaque digest : List (BitVec 8) → BitVec 384
/-- Whether a signature verifies (R405 to R409). -/
opaque signatureOk : List (BitVec 8) → Bool
/-- A signature the keystone makes (R406). -/
opaque signatureOf : List (BitVec 8) → List (BitVec 8)
/-- The part's certificate (R406). -/
opaque certificate : List (BitVec 8)
/-- A byte that a step leaves unspecified. -/
opaque freeByte : Nat → Nat → BitVec 8
/-- A register-space word whose content the spec does not give. -/
opaque freeWord : Nat → Nat → BitVec 64
/-- Whether a fenced die's drain fails to complete (R398), by tick and die. -/
opaque drainFails : Nat → Nat → Bool
/-- Whether a tested die's HBM cannot be read back (R398), by tick and die. -/
opaque hbmLost : Nat → Nat → Bool
/-- The step of R410 at which a bring-up fails; 0 when it succeeds. -/
opaque bringUpFails : Nat → Nat
/-- The channel of its stack that holds an HBM address (R415 leaves it to the device). -/
opaque hbmChannel : Nat → Nat
/-- The hash of the keystone's (0) or the scheduler's (1) firmware, by the images applied so far (R409). -/
opaque firmwareHash : Nat → Nat → BitVec 384
/-- The hash of the certificate of an attestation key (R409), by the key's number. -/
opaque attestHash : Nat → BitVec 384
/-- The security version of a firmware image (R407). -/
opaque imageVersion : List (BitVec 8) → Nat
/-- A choice that a step leaves unspecified. -/
opaque freeChoice : Nat → Nat → Nat

end Sys2Proof.Config
end

