-- ==== Sys2Proof/Machine/Table.lean ====
section
/-!
DEFINITION. Table: sparse data by key, as a list in one canonical form: keys strictly rising, and no entry equal to what
an unlisted key reads as. Equal tables are then equal lists. A memory is the table of its bytes.
-/

namespace Sys2Proof.Machine

/-- Data by key. -/
abbrev Table (α : Type) := List (Nat × α)

/-- The entry at a key. -/
def Table.find {α : Type} : Table α → Nat → Option α
  | [], _ => none
  | (k, v) :: r, q => if q = k then some v else Table.find r q

/-- Enters a value at a key, keeping the keys rising. -/
def Table.insert {α : Type} : Table α → Nat → α → Table α
  | [], q, x => [(q, x)]
  | (k, v) :: r, q, x =>
    if q < k then (q, x) :: (k, v) :: r
    else if q = k then (q, x) :: r
    else (k, v) :: Table.insert r q x

/-- Removes a key. -/
def Table.erase {α : Type} (t : Table α) (q : Nat) : Table α := t.filter (fun e => e.1 != q)

/-- Reads a key; an unlisted key reads as `d`. -/
def Table.get {α : Type} (d : α) (t : Table α) (q : Nat) : α := (t.find q).getD d

/-- Writes a key; writing what an unlisted key reads as removes the entry. -/
def Table.put {α : Type} [DecidableEq α] (d : α) (t : Table α) (q : Nat) (x : α) : Table α :=
  if x = d then t.erase q else t.insert q x

/-- The keys, rising. -/
def Table.keys {α : Type} (t : Table α) : List Nat := t.map (·.1)

/-- Keys strictly rising from a lower bound. -/
def Table.risingFrom {α : Type} : Nat → Table α → Bool
  | _, [] => true
  | n, (k, _) :: r => decide (n ≤ k) && Table.risingFrom (k + 1) r

/-- The canonical form: keys strictly rising and no entry equal to `d`. -/
def Table.wf {α : Type} [DecidableEq α] (d : α) (t : Table α) : Bool :=
  Table.risingFrom 0 t && t.all (fun e => decide (e.2 ≠ d))

/-- A memory: its bytes by address. -/
abbrev Memory := List Host.Cell

/-- What a byte that nothing has written reads as (R214 leaves it open; log 4). -/
def unlistedByte : Byte := 0

/-- Reads one byte. -/
def Memory.read (m : Memory) (a : Nat) : Byte := Table.get unlistedByte m a

/-- Writes one byte, keeping the canonical form. -/
def Memory.write (m : Memory) (a : Nat) (b : Byte) : Memory := Table.put unlistedByte m a b

/-- The canonical form of a memory. -/
abbrev Memory.wf (m : Memory) : Bool := Table.wf unlistedByte m

/-- Reads n bytes as a little-endian number (R5). -/
def Memory.readLE (m : Memory) (a : Nat) : Nat → Nat
  | 0 => 0
  | n + 1 => (m.read a).toNat + 256 * Memory.readLE m (a + 1) n

/-- Writes the low n bytes of a number, little-endian (R5). -/
def Memory.writeLE (m : Memory) (a v : Nat) : Nat → Memory
  | 0 => m
  | n + 1 => Memory.writeLE (m.write a (BitVec.ofNat 8 v)) (a + 1) (v / 256) n

/-- Makes n bytes from a on unlisted. -/
def Memory.forget (m : Memory) (a n : Nat) : Memory := m.filter (fun e => !(decide (a ≤ e.1) && decide (e.1 < a + n)))

/-- The listed bytes of some addresses become what a function gives. -/
def Memory.scramble (m : Memory) (f : Nat → Byte) (p : Nat → Bool) : Memory := (m.filter (fun e => p e.1)).foldl (fun x e => x.write e.1 (f e.1)) m

/-- Writes a list of bytes. -/
def Memory.writeBytes (m : Memory) (a : Nat) : List Byte → Memory
  | [] => m
  | b :: r => Memory.writeBytes (m.write a b) (a + 1) r

/-- Reads n bytes. -/
def Memory.readBytes (m : Memory) (a : Nat) : Nat → List Byte
  | 0 => []
  | n + 1 => m.read a :: Memory.readBytes m (a + 1) n

end Sys2Proof.Machine
end

