-- ==== Sys2Proof/Machine/State.lean ====
section
/-!
DEFINITION. State: everything the spec gives the machine, as plain data, and the machine after reset. Tables are sparse:
an unlisted core, die, queue or entry is as after reset. What a field holds is said by the rule its structure cites.
-/

namespace Sys2Proof.Machine

/-! ### Reasons to stop -/

/-- Why the machine stops. Each is raised where the spec gives no effect at all; every trap and every engine fault of
the spec is a next state, never one of these. -/
inductive Fault where
  /-- The code region's pinned translation does not hold the page of a word that a core fetches (R62 gives no
  fate to a code page that is not resident). Raised by the fetch of step. Safe: the machine stops. -/
  | codePageAbsent
  deriving DecidableEq, Repr

/-- Why the model gives no next state. -/
inductive Refusal where
  /-- The instruction has no meaning yet. Raised by Dispatch only. Safe. -/
  | notModelled (mnemonic : String)
  /-- An instruction word is executed while no issue set has been chosen (R9); step never does so. Raised by every
  instruction's prologue. Safe. -/
  | noIssueSet
  deriving DecidableEq, Repr

/-! ### Threads and groups (01, 03) -/

/-- Where an operand of a matrix operation comes from (R130, R152): a value read at arrival, or a register that the
same thread's earlier matrix word with pending write `pend` will give, forwarded when the engine has formed it. -/
inductive AccSrc where
  | val (v : Word)
  | fwd (pend reg : Nat)
  deriving DecidableEq, Repr

/-- A pending long-latency write (R67 to R70). Registers 0 to 255 are absolute g registers, 256 to 263 the run
temporaries. A value that is not known yet is none; `landed` marks a write that has landed inside its window, where its old value is still
read; `matrix` an engine result that has not landed; `hold` a write whose thread issues no younger word before it lands (R71); `fp` a
floating-point write (R25); `fixed` the result of a CBAR, whose latency is fixed (R66, R178). -/
structure Pending where
  id : Nat
  regs : List (Nat × Option Word)
  preds : List (Nat × Option Byte)
  win : Nat
  inRun : Bool
  awaited : List Nat
  awaitAll : Bool
  landed : Bool
  near : Bool
  matrix : Bool
  hold : Bool
  fp : Bool
  fixed : Bool
  deriving DecidableEq, Repr

/-- What a lane supplied when its thread arrived at a matrix operation (R130): `post` is its group's posting (R133), `pend`
its own pending write, and `dOld` what the destinations keep where a sub-element is inactive. -/
structure Arrival where
  cv : Nat
  post : Nat
  pend : Nat
  ipc : Nat
  instr : Instr
  sat : BitVec 1
  ftz : BitVec 1
  rnd : BitVec 3
  guard : Byte
  nft : Bool
  a : List Word
  sa : Word
  b : List AccSrc
  sb : Word
  d : List AccSrc
  dRegs : List Nat
  dOld : List Word
  deriving DecidableEq, Repr

/-- What a blocked thread waits for (R168, R129). -/
inductive Wait where
  | barrier (clu : Bool) (bar phase dst : Nat)
  | course (dst : Nat)
  | counter (cls n : Nat)
  | sign (cv : Nat)
  | cvwait (cv q : Nat)
  | matrix (arr : Arrival)
  deriving DecidableEq, Repr

/-- Whether a thread is runnable, blocked in a wait, or has exited (R9). -/
inductive Status where
  | run
  | wait (w : Wait)
  | exited
  deriving DecidableEq, Repr

/-- A transfer of control that takes place when the run's trailer issues (R63, R64). -/
inductive Xfer where
  | target (a : Word)
  | trapReturn
  deriving DecidableEq, Repr

/-- One thread (R14 to R25); `ffat` is when the instruction that %ffpc names was issued, `poison` its poisoned g registers (R389). `acqs` and
`fences` are the near accesses, by pending write, that an acquire of their own (R163) or a FENCE (R164) makes younger instructions wait for.
`met` is set once the case that a blocked thread waits for has held (R176, R180): what its predicate receives. -/
structure Thread where
  pc : Word
  wb : Nat
  regs : Table Word
  preds : Table Byte
  xmode : BitVec 17
  fflags : BitVec 6
  ffpc : Word
  ffat : Nat
  seed : Word
  pos : Nat
  status : Status
  owed : Bool
  stamp : Nat
  xfer : Option Xfer
  unchecked : Bool
  pend : List Pending
  acqs : List Nat
  fences : List Nat
  relFence : Bool
  met : Option Byte
  held : Bool
  signed : Table Nat
  poison : List Nat
  deriving DecidableEq, Repr

/-- What a trap saves of one thread (R29). -/
structure SavedThread where
  lane : Nat
  wb : Nat
  temps : Table Word
  pos : Nat
  xfer : Option Xfer
  back : Bool
  deriving DecidableEq, Repr

/-- The one-level trap frame (R28, R29). -/
structure Frame where
  cause : Word
  trappc : Word
  trapaddr : Word
  pcWritten : Bool
  saved : List SavedThread
  deriving DecidableEq, Repr

/-- The recorded masked near-memory faults (R26). -/
structure FaultMask where
  lanes : BitVec 32
  kind : Nat
  firstpc : Nat
  deriving DecidableEq, Repr

/-- One group (R7 to R13, R27); `posted` holds its operations and commands of class 3 in posting order, each with whether it has ended. -/
structure Group where
  role : Nat
  slot : Nat
  budget : Nat
  threads : List Thread
  turns : Nat
  frame : Option Frame
  counters : List Nat
  posted : List (Nat × Bool)
  faultmask : FaultMask
  start : Nat
  deriving DecidableEq, Repr

/-! ### Teams (01 R27, 06, 05) -/

/-- A barrier (R170), and which of its arrivals came through CBAR (R176): one counted in this phase, or held at the
listed positions for later ones. -/
structure Barrier where
  expa : Nat
  expb : Nat
  xb : Nat
  arr : Nat
  byt : Nat
  pa : Nat
  c : Nat
  errh : Nat
  errs : Bool
  ovr : Bool
  closed : Bool
  cluArr : Bool
  cluHeld : List Nat
  deriving DecidableEq, Repr

/-- A convergence register: its members and its phase (R184, R185); a thread's signature is in Thread.signed. `ready` is the cycle in which the
operation whose threads stand arrived became ready, and the slot that made it so (R129, R151). -/
structure Cv where
  members : List Nat
  q : Nat
  ready : Option (Nat × Nat)
  deriving DecidableEq, Repr

/-- State of a stage ring (R181, R183). -/
inductive RingState where
  | opened
  | closing
  | closed
  deriving DecidableEq, Repr

/-- A stage ring (R181), with the sequence numbers that an SRCLOSE waits for (R183); none for a role-based close. -/
structure Ring where
  n : Nat
  bF : Nat
  role : Nat
  st : RingState
  awaits : Option (List Nat)
  deriving DecidableEq, Repr

/-- What the engine keeps for the re-execution of a matrix word after an NFT trap (R138). -/
structure Capture where
  grp : Nat
  ipc : Nat
  lanes : List Nat
  cv : Nat
  leader : Instr
  a : Table (List Word)
  sa : Table Word
  deriving DecidableEq, Repr

/-- Where a team belongs (R22, R307): `task` is its task's sequence number and `slot` its inbox slot (R321). -/
structure TeamIds where
  team : Nat
  clx : Nat
  cly : Nat
  cluster : Nat
  grid : Nat
  task : Nat
  slot : Nat
  ctx : Nat
  peers : List (Nat × Nat)
  deriving DecidableEq, Repr

/-- What a team record takes from the launch block and the bind record (R196, R200, R211, R27). -/
structure TeamEnv where
  scratchBase : Nat
  scratchSize : Nat
  constBase : Nat
  constSize : Nat
  codeBase : Nat
  codeLen : Nat
  codePages : Table Nat
  entries : List Nat
  handlers : List Nat
  xmode : BitVec 17
  stream : Bool
  quota : Nat
  deriving DecidableEq, Repr

/-- Whether a team runs, has ended, or was stopped at a tick by an unhandled trap, or with cause zero by its watchdog (R30, R119,
R322). -/
inductive TeamState where
  | running
  | ended
  | stopped (cause trappc trapaddr : Word) (at_ : Nat)
  deriving DecidableEq, Repr

/-- One bound team: its record (R200) and what its groups share (R27). -/
structure Team where
  ids : TeamIds
  env : TeamEnv
  state : TeamState
  groups : List Group
  bars : List Barrier
  cvs : Table Cv
  rings : Table Ring
  token : Option Nat
  captures : List Capture
  courses : Nat
  cluPhases : Nat
  deriving DecidableEq, Repr

/-! ### The engine and the near memories (05, 06, 07) -/

/-- One lane's part of a matrix operation (R130). -/
structure MatLane where
  lane : Nat
  arr : Arrival
  deriving DecidableEq, Repr

/-- One member group of a matrix operation; MVT has one member (R129, R149). -/
structure MatMember where
  grp : Nat
  post : Nat
  lanes : List MatLane
  deriving DecidableEq, Repr

/-- What one lane receives from an operation: the registers' new values, the flags and whether a written element is
non-finite. -/
structure MatResult where
  grp : Nat
  lane : Nat
  regs : List (Nat × Word)
  flags : BitVec 6
  bad : Bool
  deriving DecidableEq, Repr

/-- An operation in the engine queue (R151), with its results once it has executed; `olds` holds the bytes of the constant store that
commands have overwritten while it executes (R150). -/
structure MatOp where
  tr : Nat
  leader : Instr
  a : Table (List Word)
  sa : Table Word
  members : List MatMember
  constBase : Nat
  results : Option (List MatResult)
  olds : List (Nat × Byte)
  deriving DecidableEq, Repr

/-- What one lane does at a bank (R159, R160, R167). -/
inductive NearOp where
  | load (size : Nat) (sx : Bool) (reg : Nat)
  | store (size val : Nat)
  | atom (op type operand comparand : Nat) (reg : Option Nat)
  deriving DecidableEq, Repr

/-- A request waiting at a tile-store bank or a peer port (R202, R205): the accesses of one instruction's lanes to one
sector or bank word, by physical address. `own` marks the upper halves of a 16-byte access to the core's own scratchpad, which its thread
port serves (R161, log 84). -/
structure NearReq where
  tile : Bool
  own : Bool
  unit : Nat
  bank : Nat
  write : Bool
  place : Nat
  core : Nat
  tr : Nat
  grp : Nat
  task : Nat
  pend : Nat
  lanes : List (Nat × Nat × NearOp)
  deriving DecidableEq, Repr

/-- The arrivals of one CBAR on their way to a barrier of team 0 (R178): from a team's group and lanes, to a team
record; with `one` a single arrival for all of them. -/
structure CbarArrival where
  fromCore : Nat
  fromRec : Nat
  toRec : Nat
  bar : Nat
  grp : Nat
  lanes : List Nat
  one : Bool
  pend : Nat
  deriving DecidableEq, Repr

/-- The count state of a tile-store line or an L2 line (R208, R265); a normal line is not listed. -/
structure LineCount where
  count : Nat
  scope : Nat
  launch : Nat
  cluster : Nat
  filler : Nat × Nat
  task : Nat
  deriving DecidableEq, Repr

/-- A continuation record that TPOST sent: its posting group, the commands it is held for, and whether it waits in the core's
record buffer for room (R190, R316). -/
structure TPost where
  core : Nat
  tr : Nat
  grp : Nat
  task : Nat
  grid : Nat
  ctx : Nat
  awaits : List Nat
  data : BitVec 512
  waiting : Bool
  deriving DecidableEq, Repr

/-- A lane of the package: core, team record, group, lane. -/
structure LaneId where
  core : Nat
  tr : Nat
  grp : Nat
  lane : Nat
  deriving DecidableEq, Repr

/-- A lock request with the barrier its grant arrives on (R186). -/
structure LockReq where
  who : LaneId
  bar : Nat
  granted : Bool
  deriving DecidableEq, Repr

/-! ### Hods (08) -/

/-- An entry of a hod's queue table (R217). -/
structure QEntry where
  en : Bool
  logn : Nat
  ctx : Nat
  trec : Nat
  tvalid : Bool
  base : Nat
  deriving DecidableEq, Repr

/-- A packet in queue 0 (R189, R218). -/
structure Q0Packet where
  pkt : BitVec 512
  tr : Nat
  grp : Nat
  task : Nat
  ctx : Nat
  seq : Nat
  deriving DecidableEq, Repr

/-- A command's place in its queue's completion order (R243); a ring packet's ring is its header's address and context. -/
structure Flight where
  queue : Nat
  ring : Nat
  ctx : Nat
  seq : Nat
  tr : Nat
  grp : Nat
  task : Nat
  cls : Nat
  bar : Nat
  done : Bool
  deriving DecidableEq, Repr

/-- A binding of a gather window (R235). -/
structure WinBinding where
  ctx : Nat
  ilist : Nat
  itype : Nat
  bound : Nat
  sentinel : Nat
  fill : Nat
  table : Nat
  etype : Nat
  len : Nat
  deriving DecidableEq, Repr

/-- State of a command record (R246). -/
inductive CmdState where
  | waiting
  | running
  | suspended
  deriving DecidableEq, Repr

/-- An accepted command: its record (R246), its progress (R235, R241, R242), whether it ends short of its elements (R237), until when it is held
(R245), when its message was last sent or acknowledged (R355), and what it has overwritten of the bytes that it reads, by space and address (R229, R234). -/
structure Cmd where
  pkt : BitVec 512
  state : CmdState
  kind : Nat
  queue : Nat
  grp : Nat
  trec : Nat
  tvalid : Bool
  ctx : Nat
  task : Nat
  seq : Nat
  count : Nat
  faddr : Nat
  fspace : Nat
  bytes : Nat
  released : Bool
  acquired : Bool
  lines : List Nat
  binding : Option WinBinding
  message : Option Nat
  stopped : Bool
  sent : Nat
  deadline : Nat
  saved : List (Nat × Byte)
  deriving DecidableEq, Repr

/-- One hod (R217 to R222), with its inbox commands by task (R320): those it is still to take, and those it has taken. -/
structure Hod where
  seq : Nat
  rr : Nat
  q0 : List Q0Packet
  queues : Table QEntry
  ready : Table (BitVec 512)
  inbox : List Nat
  inboxRun : List Nat
  cmds : Table Cmd
  flight : List Flight
  deriving DecidableEq, Repr

/-! ### Cores and dies -/

/-- A leaf of the page table as a TLB holds it (R332, R334): context, page base and size, and the key of its first byte,
which is LOC x 2^52 plus the physical address. -/
structure Leaf where
  ctx : Nat
  base : Nat
  size : Nat
  key : Nat
  r : Bool
  w : Bool
  comb : Bool
  deriving DecidableEq, Repr

/-- A core (R7, R13, R151, R201, R211); `busy` holds for each slot the cycle until which its last instruction occupies it (R124, R195). -/
structure Core where
  cycles : Nat
  busy : List Nat
  teams : Table Team
  binds : Table (BitVec 512)
  scratch : Memory
  const : Memory
  constBinds : List (Nat × Nat × Nat × Nat)
  engine : List MatOp
  peerReqs : List NearReq
  cbars : List CbarArrival
  tlb : List Leaf
  rr : List Nat
  hod : Hod
  deriving DecidableEq, Repr

/-- State of an L2 sector that is not Invalid (R213, R265); Counted and Spent are kept per line (R267). -/
inductive SectorState where
  | clean
  | dirty
  | pending
  deriving DecidableEq, Repr

/-- An L2 sector: valid and dirty masks (R266), its bytes, and the context and virtual address of its last access. -/
structure Sector where
  st : SectorState
  valid : BitVec 64
  dirty : BitVec 64
  data : BitVec 512
  ctx : Nat
  va : Nat
  deriving DecidableEq, Repr

/-- State of a die (R397). -/
inductive DieState where
  | online
  | fencing
  | testing
  | retired
  deriving DecidableEq, Repr

/-- A compute die (R204 to R208, R213, R235, R397, R412); `askers` holds the groups, by core, record and group, that wait for a place in a bank's
write queue, in the order of their questions (R205). -/
structure Die where
  tile : Memory
  counts : Table LineCount
  tileReqs : List NearReq
  askers : List (Nat × Nat × Nat × Nat)
  lastWrite : List Nat
  locks : Table (List LockReq)
  windows : Table WinBinding
  oor : Table Nat
  l2 : Table Sector
  l2counts : Table LineCount
  tlb : List Leaf
  state : DieState
  fences : Nat
  clock : Nat
  temp : Nat
  deriving DecidableEq, Repr

/-- A release record of a home slice (R262). -/
structure ReleaseRec where
  home : Nat
  word : Nat
  ctx : Nat
  dies : BitVec 4
  deriving DecidableEq, Repr

/-! ### Launches and the scheduler (13) -/

/-- A launch-queue entry (R299, R300). -/
structure LaunchQ where
  en : Bool
  frozen : Bool
  logn : Nat
  ctx : Nat
  base : Nat
  deriving DecidableEq, Repr

/-- What a launch's status gathers (R215, R326): the fault fields with the cluster and team that set them, the trap with the tick
of its stop. -/
structure Summary where
  faultLanes : BitVec 32
  faultKind : Nat
  faultPc : Nat
  faultBy : Option (Nat × Nat)
  ovrMask : BitVec 16
  trap : Option (Nat × Word × Word × Word)
  underread : Nat
  countSpill : Bool
  oor : Nat
  gangs : Nat
  records : Nat
  cancelled : Nat
  discarded : Nat
  badrec : Nat
  discards : Nat
  failed : Bool
  watchdog : Bool
  killed : Bool
  deriving DecidableEq, Repr

/-- A launch block, read as one number (R301). -/
abbrev Block := BitVec 2048

/-- An accepted launch or a registered node (R298, R314), by its %grid: `ring` is its queue's header, `order` its index there,
`reason` why it was rejected (R303) or 0, `courses` its courses, `lastCourse` and
`lastStop` the ticks of its last course and of its last stop by a trap (R179), `teamDies` the dies on which its context has had a team since
(R398). -/
structure Launch where
  block : Block
  ctx : Nat
  queue : Nat
  ring : Nat
  order : Nat
  node : Nat
  pages : Table Nat
  reason : Nat
  summary : Summary
  courses : Nat
  lastCourse : Nat
  lastStop : Nat
  teamDies : BitVec 4
  ended : Bool
  deriving DecidableEq, Repr

/-- A continuation record in a pallet, with its arrival (R315, R317), and where it lies in its context's spill area if it has spilled (R316);
`poisoned` once a run with it has met poison (R391). -/
structure ContRec where
  data : BitVec 512
  task : Nat
  arrived : Nat
  spilled : Option Nat
  poisoned : Bool
  deriving DecidableEq, Repr

/-- State of a work-graph node (R325). -/
inductive NodeState where
  | live
  | cancelling (retired : Bool)
  deriving DecidableEq, Repr

/-- A work-graph node (R314, R317, R325), with its pallets by home slice. -/
structure Node where
  grid : Nat
  state : NodeState
  predEnds : Nat
  pallets : Table (List ContRec)
  deriving DecidableEq, Repr

/-- A waiting gang (R310, R320): the clusters of its grid from `first` on are unbound; `poisoned` once one of its runs has met
poison (R391). -/
structure Gang where
  grid : Nat
  first : Nat
  records : List ContRec
  slice : Nat
  since : Nat
  poisoned : Bool
  deriving DecidableEq, Repr

/-- Commit state of a task (R345). -/
inductive TaskState where
  | bound
  | opened
  | committed
  | stopping (commit : Bool)
  | discarding (requeue : Bool)
  deriving DecidableEq, Repr

/-- A task (R306, R345), by its sequence number: its teams by core and record, its inbox slot, and what its released teams
have delivered (R215); `watch` is when its watchdog was restarted and `paused` when it began to stop (R322, R345). -/
structure Task where
  grid : Nat
  ctx : Nat
  state : TaskState
  teams : List (Nat × Nat)
  slot : Nat
  die : Nat
  gang : Gang
  inboxDone : Bool
  failed : Bool
  mailbox : Bool
  watch : Nat
  paused : Nat
  summary : Summary
  deriving DecidableEq, Repr

/-- A page fault that the scheduler core is to resolve (R337): its context, page and faulting address, and once it has begun, which marks the
page's entry as changing, the entry's place and what it held. -/
structure PageFault where
  ctx : Nat
  base : Nat
  size : Nat
  va : Nat
  begun : Option (Nat × Nat)
  deriving DecidableEq, Repr

/-- The scheduler core's registers and work (R299, R309, R343); `rr` is the source served last and `stuck` the chosen gang that
could not be placed, by context (R310); `faults` are the page faults in order of arrival (R337). -/
structure Sched where
  ageing : Nat
  watchdog : Nat
  preempt : Bool
  hold : Nat
  thawlimit : Nat
  retire : Nat
  queues : Table LaunchQ
  launches : Table Launch
  nodes : Table Nat
  graph : Table Node
  gangs : List Gang
  tasks : Table Task
  gridSeq : Nat
  taskSeq : Nat
  rr : Table Nat
  stuck : Table Gang
  tposts : List TPost
  faults : List PageFault
  standby : Bool
  stopped : Bool
  deriving DecidableEq, Repr

/-! ### Contexts and regions (14) -/

/-- Who asked for a FREEZE or THAW (R192, R330): a barrier of a team of a task and cluster, or the mailbox. -/
inductive Asker where
  | team (core rec bar : Nat) (task cluster : Nat)
  | mailbox
  deriving DecidableEq, Repr

/-- A FREEZE or THAW that the sequencer holds (R342), with the commands a FREEZE waits for (R192). -/
structure FreezeReq where
  thaw : Bool
  asker : Asker
  awaits : List Nat
  deriving DecidableEq, Repr

/-- A region entry (R338), with the events its sequencer holds and the arrivals it owes (R342, R343); a thaw began at `since`. The dies of `lag`
have not applied the last change to their copies yet and see the freeze count and the thaw of before it (R339). -/
structure Region where
  valid : Bool
  priv : Bool
  ownerDie : Nat
  thawing : Bool
  draining : Bool
  fcount : Nat
  keyid : Nat
  base : Nat
  size : Nat
  held : List FreezeReq
  owes : List Asker
  peersLeft : List Nat
  since : Nat
  lag : BitVec 4
  wasCount : Nat
  wasThawing : Bool
  deriving DecidableEq, Repr

/-- State of a context (R329). -/
inductive CtxState where
  | free
  | creating
  | live
  | tearing
  deriving DecidableEq, Repr

/-- A context entry (R328), its pool use, the slots of its spill area that hold records (R316), its region table and pending operations; `cut`
marks the peers that THAWLIMIT took out of PEERS (R343), and `keyNo` is the number of its own key (R403, R405). -/
structure Ctx where
  state : CtxState
  owner : Nat
  ptroot : Nat
  cores : BitVec 192
  grant : List (Nat × Nat)
  poolBase : Nat
  poolLen : Nat
  poolUsed : List (Nat × Nat)
  spill : Nat
  spillLen : Nat
  spilled : List Nat
  peers : BitVec 16
  cut : BitVec 16
  frozenwr : Nat
  regions : Table Region
  repart : Option (BitVec 192 × List (Nat × Nat))
  key : Option (BitVec 256)
  keyNo : Nat
  deriving DecidableEq, Repr

/-- A mailbox (R330, R406); `begun` marks an operation that has been taken up and is still in progress. -/
structure Mailbox where
  op : Nat
  ctx : Nat
  idx : Nat
  arg0 : Nat
  arg1 : Nat
  arg2 : Nat
  busy : Bool
  begun : Bool
  result : Nat
  session : Nat
  deriving DecidableEq, Repr

/-! ### Host link and fabric (15) -/

/-- Status of a GCL response (R350). -/
inductive GclStatus where
  | ok | badaddr | badsize | nomap | denied | frozen
  deriving DecidableEq, Repr

/-- An event to the host (R353), its DETAIL by the parts that the table lists. -/
structure HostEvent where
  type : Nat
  ctx : Nat
  lost : Nat
  seq : Nat
  detail : List Nat
  deriving DecidableEq, Repr

/-- A GCL session (R349, R353): its owner id and the events held for it. -/
structure Session where
  owner : Nat
  events : List HostEvent
  lost : Nat
  seq : Nat
  deriving DecidableEq, Repr

/-- A GCL response (R350): the model's own output record. -/
structure Response where
  session : Nat
  ch : Nat
  status : GclStatus
  data : List Byte
  deriving DecidableEq, Repr

/-- What a GCL request asks (R350). -/
inductive GclKind where
  | read (addr len : Nat)
  | write (addr : Nat) (data : List Byte)
  | atomic (addr op size operand comparand : Nat)
  | fence
  deriving DecidableEq, Repr

/-- A GCL request that waits on its channel (R350, R351). -/
structure GclReq where
  session : Nat
  ch : Nat
  kind : GclKind
  deriving DecidableEq, Repr

/-- A memory window (R351). -/
structure Window where
  en : Bool
  ctx : Nat
  base : Nat
  deriving DecidableEq, Repr

/-- A send queue (R355). -/
structure SendQ where
  en : Bool
  rod : Bool
  ctx : Nat
  spray : Nat
  job : Nat
  rq : Nat
  retry : Nat
  deriving DecidableEq, Repr

/-- A message in progress at a receive queue (R356): sender, send queue, message number, slot index, bytes landed, and whether it comes by
ordered delivery (R354). -/
structure InMsg where
  src : Nat
  sq : Nat
  mid : Nat
  n : Nat
  landed : Nat
  rod : Bool
  deriving DecidableEq, Repr

/-- A receive queue (R356). -/
structure RecvQ where
  en : Bool
  ctx : Nat
  job : Nat
  logs : Nat
  logz : Nat
  base : Nat
  freed : Nat
  h : Nat
  msgs : List InMsg
  deriving DecidableEq, Repr

/-- A peer entry (R358). -/
structure PeerEntry where
  en : Bool
  expr : Bool
  expw : Bool
  job : Nat
  endpoint : Nat
  expbase : Nat
  explen : Nat
  deriving DecidableEq, Repr

/-- What the package has put on the network (R240, R355, R359, R360): the model's own output record. -/
inductive NetOut where
  | message (port queue endpoint job rq : Nat) (rod : Bool) (ports : BitVec 16) (payload : List Byte)
  | readReply (endpoint : Nat) (frozen : Bool) (data : List Byte)
  | refusal (endpoint addr : Nat) (write : Bool)
  | packetAck (queue src mid off : Nat)
  | packetRefused (queue src mid off : Nat)
  | remoteRead (ctx peer addr : Nat)
  | remoteWrite (ctx peer addr : Nat) (data : List (Nat × Byte))
  | remoteAtomic (ctx peer addr op type operand comparand : Nat)
  | collect (ctx peer idx : Nat)
  deriving DecidableEq, Repr

/-- The host's side and the fabric (R349 to R360), with the requests that wait on their channels, in order of issue. -/
structure HostSide where
  sessions : Table Session
  responses : List Response
  windows : Table Window
  sendQs : Table SendQ
  recvQs : Table RecvQ
  peers : Table PeerEntry
  netOut : List NetOut
  waiting : List GclReq
  deriving DecidableEq, Repr

/-! ### The keystone and the hours (19) -/

/-- The keystone (R403 to R409), with its shared keys: owner, KEYID and the key's number. -/
structure Keystone where
  box : Mailbox
  shared : List (Nat × Nat × Nat)
  nonces : Nat
  staged : Option (List Byte)
  secver : Nat
  attest : Nat
  firmware : Nat
  deriving DecidableEq, Repr

/-- Where a poisoned word of a memory lies (R389), or one copy of a line's L2 tag that cannot be corrected (R388). -/
inductive PoisonAt where
  | far (word : Nat)
  | l2 (die word : Nat)
  | tile (die word : Nat)
  | scratch (core word : Nat)
  | const (core word : Nat)
  | tag (die line : Nat)
  deriving DecidableEq, Repr

/-- Fenced units (R4, R400). -/
structure Fenced where
  cores : List Nat
  banks : List (Nat × Nat)
  slices : List Nat
  channels : List Nat
  lanes : List Nat
  ports : List Nat
  deriving DecidableEq, Repr

/-- Power state (R411). -/
inductive Power where
  | p0 | p1 | p2 | p3
  deriving DecidableEq, Repr

/-- What an error record says (R395). -/
structure ErrorInfo where
  cls : Nat
  unit : Nat
  die : Nat
  ctx : Nat
  index : Nat
  addr : Nat
  task : Nat
  action : Nat
  deriving DecidableEq, Repr

/-- An error that has been detected and whose record is still to be written (R396): one that a task has met, with the unit, the core that consumed
it, the word's place in its unit and its device virtual address; or one whose record is ready. -/
inductive Detected where
  | consumed (task unit core place addr : Nat)
  | record (e : ErrorInfo)
  deriving DecidableEq, Repr

/-- Errors, fences, power and telemetry (R387 to R413): `correctedAt` is when a unit last wrote a corrected record (R395), `errorTimes`
the errors of a unit or lane that count against its threshold (R394, R396), `lostPages` the pages whose memory is lost (R398), by context,
base and size, and `contained` what has been detected, in order, from the oldest error that a task has met on. -/
structure Hours where
  status : Nat
  log : Table (BitVec 512)
  loghead : Nat
  poison : List PoisonAt
  fenced : Fenced
  gen : Nat
  telemetry : Table Nat
  correctedAt : Table Nat
  errorTimes : Table (List Nat)
  power : Power
  powerIgnored : Bool
  powercap : Nat
  lostPages : List (Nat × Nat × Nat)
  contained : List Detected
  deriving DecidableEq, Repr

/-! ### The machine -/

/-- The issue turn in progress (R9): the issue set, and the instruction its PC holds. -/
structure Turn where
  core : Nat
  tr : Nat
  grp : Nat
  lanes : List Nat
  pfx : Option Pfx
  ipc : Nat
  len : Nat
  closes : Bool
  deriving DecidableEq, Repr

/-- A turn that is set aside while another slot issues (R9), with its slot and its team's task. -/
structure Parked where
  slot : Nat
  task : Nat
  turn : Turn
  deriving DecidableEq, Repr

/-- What comes next: the core cycles and nanoseconds that pass before it, and the step of another agent, or none for the next instruction
of the turn in progress (log 1). -/
structure Coming where
  cycles : Nat
  ns : Nat
  ev : Option Instr
  deriving DecidableEq, Repr

/-- The whole package: everything the spec gives the machine, and the model's own fields (cycles, coming, tick, turn,
parked, rotor). A core's %cycles is the cycles of its own instructions and those that passed with coming steps. Device memory is `far`, with the
key under which each sector is stored and the tick of that key's first write there in `farKeys` (R403; an unlisted sector has none), and `codeOld`
holds the words of the code of running launches that commands have overwritten (R305): word number and earlier value. -/
structure State where
  cores : Table Core
  dies : Table Die
  far : Memory
  farKeys : Table (Nat × Nat)
  codeOld : List (Nat × Nat)
  releases : List ReleaseRec
  sched : Sched
  ctxs : Table Ctx
  box : Mailbox
  host : HostSide
  keystone : Keystone
  hours : Hours
  ns : Nat
  cycles : Nat
  coming : List Coming
  tick : Nat
  turn : Option Turn
  parked : List Parked
  rotor : Nat
  deriving DecidableEq, Repr

/-! ### Reset -/

/-- A hod after reset (R217, R218). -/
def Hod.reset : Hod :=
  { seq := 0, rr := 0, q0 := [], queues := [], ready := [], inbox := [], inboxRun := [], cmds := [], flight := [] }

/-- A core after reset (R22, R214, R217, R307). -/
def Core.reset : Core :=
  { cycles := 0, busy := [0, 0, 0, 0], teams := [], binds := [], scratch := [], const := [], constBinds := [], engine := [], peerReqs := [],
    cbars := [], tlb := [], rr := [0, 0, 0, 0], hod := Hod.reset }

/-- A die after reset (R3, R397, R412); the junction temperature is a DESIGN CHOICE (log 3). -/
def Die.reset : Die :=
  { tile := [], counts := [], tileReqs := [], askers := [], lastWrite := [], locks := [], windows := [], oor := [], l2 := [], l2counts := [],
    tlb := [], state := .online, fences := 0, clock := 4000, temp := 0 }

/-- A queue-table entry after reset (R217). -/
def QEntry.reset : QEntry := { en := false, logn := 0, ctx := 0, trec := 0, tvalid := false, base := 0 }

/-- A launch-queue entry after reset (R299). -/
def LaunchQ.reset : LaunchQ := { en := false, frozen := false, logn := 0, ctx := 0, base := 0 }

/-- The status of a launch that has gathered nothing. -/
def Summary.empty : Summary :=
  { faultLanes := 0, faultKind := 0, faultPc := 0, faultBy := none, ovrMask := 0, trap := none, underread := 0,
    countSpill := false, oor := 0, gangs := 0, records := 0, cancelled := 0, discarded := 0, badrec := 0, discards := 0,
    failed := false, watchdog := false, killed := false }

/-- A region entry after reset (R338). -/
def Region.reset : Region :=
  { valid := false, priv := false, ownerDie := 0, thawing := false, draining := false, fcount := 0, keyid := 0, base := 0,
    size := 0, held := [], owes := [], peersLeft := [], since := 0, lag := 0, wasCount := 0, wasThawing := false }

/-- A context entry after reset (R328). -/
def Ctx.reset : Ctx :=
  { state := .free, owner := 0, ptroot := 0, cores := 0, grant := [(0, 0), (0, 0), (0, 0), (0, 0)], poolBase := 0, poolLen := 0,
    poolUsed := [], spill := 0, spillLen := 0, spilled := [], peers := 0, cut := 0, frozenwr := 0, regions := [], repart := none,
    key := none, keyNo := 0 }

/-- A mailbox after reset (R330). -/
def Mailbox.reset : Mailbox :=
  { op := 0, ctx := 0, idx := 0, arg0 := 0, arg1 := 0, arg2 := 0, busy := false, begun := false, result := 0, session := 0 }

/-- A memory window after reset (R351). -/
def Window.reset : Window := { en := false, ctx := 0, base := 0 }

/-- A send queue after reset (R355). -/
def SendQ.reset : SendQ := { en := false, rod := false, ctx := 0, spray := 0, job := 0, rq := 0, retry := 1000 }

/-- A receive queue after reset (R356). -/
def RecvQ.reset : RecvQ :=
  { en := false, ctx := 0, job := 0, logs := 0, logz := 0, base := 0, freed := 0, h := 0, msgs := [] }

/-- A peer entry after reset (R358). -/
def PeerEntry.reset : PeerEntry :=
  { en := false, expr := false, expw := false, job := 0, endpoint := 0, expbase := 0, explen := 0 }

/-- The scheduler after reset (R299, R309, R343); its counters are a DESIGN CHOICE (log 3). -/
def Sched.reset : Sched :=
  { ageing := 1000, watchdog := 100, preempt := true, hold := 1000, thawlimit := 10, retire := 0, queues := [], launches := [],
    nodes := [], graph := [], gangs := [], tasks := [], gridSeq := 0, taskSeq := 0, rr := [], stuck := [], tposts := [], faults := [], standby := false,
    stopped := false }

/-- The host's side after reset. -/
def HostSide.reset : HostSide :=
  { sessions := [], responses := [], windows := [], sendQs := [], recvQs := [], peers := [], netOut := [], waiting := [] }

/-- The keystone after reset (R405, R406); the security version is a DESIGN CHOICE (log 3). -/
def Keystone.reset : Keystone :=
  { box := Mailbox.reset, shared := [], nonces := 1, staged := none, secver := 0, attest := 0, firmware := 0 }

/-- Errors, power and telemetry after a bring-up that succeeded (R410, R411); GEN and POWERCAP are a DESIGN CHOICE
(log 3). -/
def Hours.reset : Hours :=
  { status := 1, log := [], loghead := 0, poison := [], fenced := { cores := [], banks := [], slices := [], channels := [], lanes := [], ports := [] },
    gen := 0, telemetry := [], correctedAt := [], errorTimes := [], power := .p0, powerIgnored := false, powercap := 2800, lostPages := [],
    contained := [] }

/-- The package right after reset and bring-up (R410): no context, no key, no work. -/
def State.reset : State :=
  { cores := [], dies := [], far := [], farKeys := [], codeOld := [], releases := [], sched := Sched.reset, ctxs := [], box := Mailbox.reset,
    host := HostSide.reset, keystone := Keystone.reset, hours := Hours.reset, ns := 0, cycles := 0, coming := [], tick := 0, turn := none,
    parked := [], rotor := 0 }

end Sys2Proof.Machine
end

