-- ==== Sys2Proof/Machine/Operands.lean ====
section
/-!
DEFINITION. Operands: sub-elements and guards (R14, R18 to R21), register fields (R15), the modes a prefix and %xmode
give an instruction (R38, R74, R75), and the registers and predicates each instruction names.
-/

namespace Sys2Proof.Machine

/-! ### Sub-elements, guards and predicates -/

/-- Sub-element i of width w (R18). -/
def el (w : Nat) (x : Word) (i : Nat) : Nat := x.toNat / 2 ^ (w * i) % 2 ^ w

/-- The word with sub-element i of width w replaced. -/
def setEl (w : Nat) (x : Word) (i v : Nat) : Word :=
  BitVec.ofNat 64 (x.toNat - el w x i * 2 ^ (w * i) + v % 2 ^ w * 2 ^ (w * i))

/-- Whether sub-element i of S is active under guard bits (R14). -/
def onEl (guard : Byte) (S i : Nat) : Bool := if S = 16 then guard.getLsbD (i / 2) else guard.getLsbD (i % 8)

/-- Replaces each active sub-element by `f i` (R14): the others keep their bits. -/
def mapEls (S w : Nat) (guard : Byte) (d : Word) (f : Nat → Nat) : Word :=
  (List.range S).foldl (fun x i => if onEl guard S i then setEl w x i (f i) else x) d

/-- A predicate written at S sub-elements (R19): bit j takes the result of sub-element j mod S, at S = 16 the AND of
2j and 2j + 1; bits of inactive sub-elements keep their old values. -/
def predEls (S : Nat) (guard : Byte) (old : Byte) (r : Nat → Bool) : Byte :=
  BitVec.ofBoolListLE ((List.range 8).map (fun j =>
    if S = 16 then (if guard.getLsbD j then r (2 * j) && r (2 * j + 1) else old.getLsbD j)
    else if onEl guard S (j % S) then r (j % S) else old.getLsbD j))

/-- Width and count of the integer width code W3 (R84). -/
def wCount (w : Nat) : Nat := 2 ^ w
/-- Element width of a width code (R84). -/
def wWidth (w : Nat) : Nat := 64 / 2 ^ w

/-- Sub-elements of a float type code (R84). -/
def ftCount (t : BitVec 2) : Nat := 64 / (Fmt.ofFt t).width

/-! ### Registers of a thread -/

/-- The register a field names (R15): g[WB + f], or t[f - 120] at 256 on. -/
def Thread.ix (th : Thread) (f : Nat) : Nat := if f < 120 then th.wb + f else 256 + (f - 120)

/-- Reads a register by its index; a register nothing wrote is zero (R17, R23). -/
def Thread.reg (th : Thread) (r : Nat) : Word := Table.get 0 th.regs r

/-- Writes a register; it is poisoned no more (R389). -/
def Thread.setReg (th : Thread) (r : Nat) (v : Word) : Thread := { th with regs := Table.put 0 th.regs r v, poison := th.poison.erase r }

/-- Reads the register that a field names. -/
def Thread.rd (th : Thread) (f : BitVec 7) : Word := th.reg (th.ix f.toNat)

/-- Reads a predicate; p0 reads 0xFF (R19). -/
def Thread.pred (th : Thread) (p : Nat) : Byte := if p = 0 then 0xFF else Table.get 0 th.preds p

/-- Writes a predicate; a write to p0 is discarded (R19). -/
def Thread.setPred (th : Thread) (p : Nat) (v : Byte) : Thread :=
  if p = 0 then th else { th with preds := Table.put 0 th.preds p v }

/-- Fields of %xmode (R24). -/
def Thread.xrm (th : Thread) : Nat := (th.xmode.extractLsb' 0 3).toNat
/-- %xmode FTZ. -/
def Thread.xftz (th : Thread) : Bool := th.xmode.getLsbD 3
/-- %xmode NFT. -/
def Thread.xnft (th : Thread) : Bool := th.xmode.getLsbD 4
/-- %xmode LANEFAULT: stop. -/
def Thread.xstop (th : Thread) : Bool := th.xmode.getLsbD 5
/-- %xmode SCOPE. -/
def Thread.xscope (th : Thread) : Nat := (th.xmode.extractLsb' 6 3).toNat
/-- %xmode ORDER. -/
def Thread.xorder (th : Thread) : Nat := (th.xmode.extractLsb' 9 2).toNat
/-- %xmode TE. -/
def Thread.xte (th : Thread) : FFlags := th.xmode.extractLsb' 11 6

/-- Predicate of a prefix's guard. -/
def pfxGp : Pfx → Nat
  | .arith gp .. | .mem gp .. => gp.toNat
/-- Negate bit of a prefix's guard. -/
def pfxGn : Pfx → Bool
  | .arith _ gn .. | .mem _ gn .. => gn == 1#1

/-- The guard bits of an instruction in a thread (R14, R75): all ones without a prefix. -/
def Thread.guard (th : Thread) (p : Option Pfx) : Byte :=
  match p with
  | none => 0xFF
  | some p => if pfxGn p then ~~~ th.pred (pfxGp p) else th.pred (pfxGp p)

/-- What a thread's instruction works under: guard, effective modes (R38), order and scope (R74, R75). -/
structure Modes where
  guard : Byte
  rm : Nat
  sat : Bool
  ftz : Bool
  nft : Bool
  order : Nat
  scope : Nat
  consume : Bool
  deriving DecidableEq, Repr

/-- The modes of an instruction in a thread. -/
def Thread.modes (th : Thread) (p : Option Pfx) : Modes :=
  match p with
  | some (.arith _ _ rnd sat ftz nft) =>
    { guard := th.guard p, rm := if rnd.toNat = 6 then th.xrm else rnd.toNat, sat := sat == 1#1, ftz := th.xftz || ftz == 1#1,
      nft := th.xnft || nft == 1#1, order := th.xorder, scope := th.xscope, consume := false }
  | some (.mem _ _ order scope _ consume _) =>
    { guard := th.guard p, rm := th.xrm, sat := false, ftz := th.xftz, nft := th.xnft, order := order.toNat,
      scope := scope.toNat, consume := consume == 1#1 }
  | none =>
    { guard := 0xFF, rm := th.xrm, sat := false, ftz := th.xftz, nft := th.xnft, order := th.xorder, scope := th.xscope,
      consume := false }

/-- The access offset in bytes (R57, R74): OFF6 or the 18-bit extension, times the access size. -/
def memOffset (p : Option Pfx) (off : BitVec 6) (size : Nat) : Word :=
  match p with
  | some (.mem _ _ _ _ _ _ offx) => (offx ++ off).signExtend 64 * BitVec.ofNat 64 size
  | _ => off.signExtend 64 * BitVec.ofNat 64 size

/-! ### Registers an instruction names -/

/-- Consecutive fields. -/
def fieldRange (f : BitVec 7) (n : Nat) : List Nat := (List.range n).map (f.toNat + ·)

/-- Registers of an access: a pair for 16 bytes (R57). -/
def sizeRegs (s : BitVec 3) : Nat := if s.toNat = 4 then 2 else 1

/-- The register fields an instruction reads (R68, R83). -/
def readFields : Instr → List Nat
  | .iadd _ a b _ | .isub _ a b _ | .imul _ a b _ | .imulh _ a b _ | .imulhn _ a b _ | .imin _ a b _ | .imax _ a b _
  | .iminn _ a b _ | .imaxn _ a b _ | .shl _ a b _ | .shr _ a b _ | .sar _ a b _ | .rol _ a b _ | .ror _ a b _
  | .iaddNatural _ a b _ | .isubNatural _ a b _ | .imulNatural _ a b _ | .icmp _ _ a b _ | .and _ a b | .or _ a b
  | .xor _ a b | .andn _ a b | .bfxNatural _ a b | .bfxSigned _ a b | .lea _ a b _
  | .fadd _ a b _ | .fsub _ a b _ | .fmul _ a b _ | .fcps _ a b _ | .fcmp _ _ a b _ | .fmin _ a b _ | .fmax _ a b _ =>
    [a.toNat, b.toNat]
  | .imad d a b _ | .prmb d a b | .bfi d a b | .wmacl d a b _ | .wmach d a b _ | .ffma d a b _ | .ffms d a b _ | .fnma d a b _ =>
    [d.toNat, a.toNat, b.toNat]
  | .iaddc d a _ _ | .isubb d a _ _ | .sel d a _ _ => [d.toNat, a.toNat]
  | .ineg _ a _ _ | .iabs _ a _ _ | .popc _ a _ | .clz _ a _ | .ctz _ a _ | .brev _ a _ | .not _ a | .mov _ a | .g2p _ a
  | .addi _ a _ | .andImmediate _ a _ | .orImmediate _ a _ | .xorImmediate _ a _ | .andnImmediate _ a _ | .shlImmediate _ a _
  | .shrImmediate _ a _ | .sarImmediate _ a _ | .rolImmediate _ a _ | .rorImmediate _ a _ | .bfxImmediateNatural _ a _ _
  | .bfxImmediateSigned _ a _ _ | .cmpi _ _ a _ | .fabs _ a _ | .fneg _ a _ | .fclass _ a _ _ | .cvt _ a _ _ _ | .cvts _ a _ _ _ | .seed a
  | .fsqrt _ a _ _ | .exp2 _ a _ _ | .log2 _ a _ _ | .rcp _ a _ _ | .rsq _ a _ _ | .sin _ a _ _ | .cos _ a _ _ | .tanh _ a _ _
  | .sigm _ a _ _ | .sftp _ a _ _ | .bcast _ a _ _ | .matchLanes _ a _ | .jmpr a | .swr a _ => [a.toNat]
  | .fdiv d a _ _ | .idivSigned d a _ _ | .idivNatural d a _ _ | .iremSigned d a _ _ | .iremNatural d a _ _
  | .shfl d a _ _ _ => [d.toNat, a.toNat]
  | .reduce d a s _ _ _ | .scanInclusive d a s _ _ _ | .scanExclusive d a s _ _ _ =>
    if s == 1#1 then [d.toNat, a.toNat] else [a.toNat]
  | .mma d a b _ sc z sa sb _ ta _ =>
    (if z == 1#1 then [] else fieldRange d (tileRegs ta)) ++ fieldRange a 4 ++ fieldRange b 4 ++
      (if sc == 1#1 then [sa.toNat, sb.toNat] else [])
  | .mmas d a b _ sc z sa sb _ ta _ pat =>
    (if z == 1#1 then [] else fieldRange d 4) ++ fieldRange a (mmasARegs ta pat) ++ fieldRange b 8 ++
      (if sc == 1#1 then [sa.toNat, sb.toNat] else [])
  | .mtrn _ b _ _ t | .mperm _ b _ _ _ t _ _ | .mrsum _ b _ _ t _ => fieldRange b (tileRegs t)
  | .mvt d a b _ _ z mm kk _ =>
    (if z == 1#1 then [] else fieldRange d (mm.toNat / 2 + 1)) ++ fieldRange a (kk.toNat / 2 + 1) ++ [b.toNat]
  | .lds _ b _ _ _ | .ldt _ b _ _ _ | .ldc _ b _ _ _ | .ldx _ b _ _ _ => [b.toNat]
  | .st d b _ s _ z => b.toNat :: (if z == 1#1 then [] else fieldRange d (sizeRegs s))
  | .atom d a b _ _ _ op _ _ => [a.toNat, b.toNat] ++ (if op.toNat = 8 then [d.toNat] else [])
  | .binit _ a | .bexp _ _ _ a | .bwait _ a _ _ | .srinit _ _ a _ _ | .sracq _ a _ | .srget _ a _ | .srrel _ _ a | .cvset a _
  | .lock a _ | .unlock a | .freeze a _ | .thaw a _ | .rgqry _ a _ | .gwqry _ a _ => [a.toNat]
  | .srput x _ _ a b => a.toNat :: (if x == 1#1 then [b.toNat] else [])
  | .cpost _ a _ | .tpost a => fieldRange a 8
  | _ => []

/-- The register fields an instruction writes (R69). -/
def writeFields : Instr → List Nat
  | .iadd d .. | .isub d .. | .imul d .. | .imulh d .. | .imulhn d .. | .imad d .. | .imin d .. | .imax d .. | .iminn d ..
  | .imaxn d .. | .shl d .. | .shr d .. | .sar d .. | .rol d .. | .ror d .. | .iaddc d .. | .isubb d .. | .ineg d .. | .iabs d ..
  | .popc d .. | .clz d .. | .ctz d .. | .brev d .. | .and d .. | .or d .. | .xor d .. | .andn d .. | .not d .. | .mov d ..
  | .sel d .. | .prmb d .. | .bfxNatural d .. | .bfxSigned d .. | .bfi d .. | .lea d .. | .p2g d .. | .wmacl d .. | .wmach d ..
  | .iaddNatural d .. | .isubNatural d .. | .imulNatural d .. | .addi d .. | .andImmediate d .. | .orImmediate d ..
  | .xorImmediate d .. | .andnImmediate d .. | .shlImmediate d .. | .shrImmediate d .. | .sarImmediate d .. | .rolImmediate d ..
  | .rorImmediate d .. | .bfxImmediateNatural d .. | .bfxImmediateSigned d .. | .lui d .. | .fadd d .. | .fsub d .. | .fmul d ..
  | .ffma d .. | .ffms d .. | .fnma d .. | .fabs d .. | .fneg d .. | .fcps d .. | .fmin d .. | .fmax d .. | .cvt d .. | .rnd d
  | .fdiv d .. | .fsqrt d .. | .exp2 d .. | .log2 d .. | .rcp d .. | .rsq d .. | .sin d .. | .cos d .. | .tanh d .. | .sigm d ..
  | .sftp d .. | .idivSigned d .. | .idivNatural d .. | .iremSigned d .. | .iremNatural d .. | .shfl d .. | .bcast d ..
  | .voteBallot d .. | .matchLanes d .. | .reduce d .. | .scanInclusive d .. | .scanExclusive d .. | .barr d .. | .bqry d ..
  | .cbar d .. | .cpost d .. | .rgqry d .. | .gwqry d .. | .srd d .. | .fstc d => [d.toNat]
  | .cvts d .. => fieldRange d 2
  | .mma d _ _ _ _ _ _ _ _ ta _ => fieldRange d (tileRegs ta)
  | .mmas d .. => fieldRange d 4
  | .mtrn d _ _ _ t | .mperm d _ _ _ _ t _ _ | .mrsum d _ _ _ t _ => fieldRange d (tileRegs t)
  | .mvt d _ _ _ _ _ mm _ _ => fieldRange d (mm.toNat / 2 + 1)
  | .lds d _ _ s _ | .ldt d _ _ s _ | .ldc d _ _ s _ | .ldx d _ _ s _ => fieldRange d (sizeRegs s)
  | .atom d _ _ _ fn .. => if fn.toNat = 0 then [d.toNat] else []
  | _ => []

/-- The predicates an instruction reads beside its guard. -/
def readPreds : Instr → List Nat
  | .iaddc _ _ _ c | .isubb _ _ _ c | .sel _ _ _ c => [c.toNat]
  | .pand _ a b | .por _ a b | .pxor _ a b => [a.toNat, b.toNat]
  | .pnot _ a | .p2g _ a | .vote _ a _ _ | .voteBallot _ a _ => [a.toNat]
  | .wmacl _ _ _ c | .wmach _ _ _ c => [8 + c.toNat]
  | .br g .. | .call g .. => [g.toNat]
  | _ => []

/-- The predicates an instruction writes. -/
def writePreds : Instr → List Nat
  | .iaddc _ _ _ c | .isubb _ _ _ c => [c.toNat]
  | .icmp _ p _ _ _ | .cmpi _ p _ _ | .fcmp _ p _ _ _ | .fclass p _ _ _ => [p.toNat]
  | .pand d _ _ | .por d _ _ | .pxor d _ _ | .pnot d _ | .g2p d _ | .vote d _ _ _ => [d.toNat]
  | .wmacl _ _ _ c | .wmach _ _ _ c => [8 + c.toNat]
  | .bwait p _ _ _ | .course p | .sracq p _ _ | .srget p _ _ => [p.toNat]
  | _ => []

/-- The registers that an instruction writes without naming them: the link register of CALL (R116). -/
def linkWrites (i : Instr) (budget : Nat) : List Nat :=
  match i with
  | .call .. => [budget - 1]
  | _ => []

/-- The register fields whose window an instruction checks (R16): what it reads and what it writes, and a trailer's
names other than none. -/
def windowFields : Instr → List Nat
  | .trl f s t _ => [f.toNat, s.toNat, t.toNat].filter (· != 127)
  | i => readFields i ++ writeFields i

/-- Long-latency instructions carry a lookahead count (R67); the others have fixed latency (R66). -/
def lookahead : Instr → Option Nat
  | .fdiv _ _ l _ | .fsqrt _ _ l _ | .exp2 _ _ l _ | .log2 _ _ l _ | .rcp _ _ l _ | .rsq _ _ l _ | .sin _ _ l _ | .cos _ _ l _
  | .tanh _ _ l _ | .sigm _ _ l _ | .sftp _ _ l _ | .idivSigned _ _ l _ | .idivNatural _ _ l _ | .iremSigned _ _ l _
  | .iremNatural _ _ l _ | .shfl _ _ _ _ l | .bcast _ _ _ l | .vote _ _ _ l | .voteBallot _ _ l | .matchLanes _ _ l
  | .reduce _ _ _ _ _ l | .scanInclusive _ _ _ _ _ l | .scanExclusive _ _ _ _ _ l | .mma _ _ _ l .. | .mmas _ _ _ l ..
  | .mtrn _ _ l .. | .mperm _ _ l .. | .mrsum _ _ l .. | .mvt _ _ _ l .. | .lds _ _ _ _ l | .ldt _ _ _ _ l | .ldc _ _ _ _ l
  | .ldx _ _ _ _ l | .atom _ _ _ l .. | .cpost _ _ l | .rgqry _ _ l | .gwqry _ _ l => some l.toNat
  | _ => none

/-- The long-latency floating-point instructions (R25, R53, R67). -/
def floatLate : Instr → Bool
  | .fdiv .. | .fsqrt .. | .exp2 .. | .log2 .. | .rcp .. | .rsq .. | .sin .. | .cos .. | .tanh .. | .sigm .. | .sftp .. | .mma .. | .mmas ..
  | .mtrn .. | .mperm .. | .mrsum .. | .mvt .. => true
  | .reduce _ _ _ o _ _ | .scanInclusive _ _ _ o _ _ | .scanExclusive _ _ _ o _ _ => decide (8 ≤ o.toNat)
  | _ => false

/-- Which roles besides all may issue an instruction (R59). -/
inductive RoleNeed where
  | every | vector | matrix
  deriving DecidableEq, Repr

/-- The role column of R59. -/
def roleNeed : Instr → RoleNeed
  | .fadd .. | .fsub .. | .fmul .. | .ffma .. | .ffms .. | .fnma .. | .fabs .. | .fneg .. | .fcps .. | .fcmp .. | .fclass ..
  | .fmin .. | .fmax .. | .cvt .. | .cvts .. | .seed _ | .rnd _ | .fdiv .. | .fsqrt .. | .exp2 .. | .log2 .. | .rcp .. | .rsq ..
  | .sin .. | .cos .. | .tanh .. | .sigm .. | .sftp .. | .idivSigned .. | .idivNatural .. | .iremSigned .. | .iremNatural ..
  | .st .. => .vector
  | .mma .. | .mmas .. | .mtrn .. | .mperm .. | .mrsum .. | .mtok .. | .mvt .. => .matrix
  | _ => .every

/-- Whether a role may issue it (R59): 0 all, 1 loader, 2 matrix, 3 vector. -/
def roleOk (role : Nat) (i : Instr) : Bool :=
  match roleNeed i with
  | .every => true
  | .vector => role == 0 || role == 3
  | .matrix => role == 0 || role == 2

/-- Branch-class instructions must end their run (R63). -/
def endsRun : Instr → Bool
  | .br .. | .call .. | .ret | .retTrap | .jmpr _ | .exit => true
  | _ => false

/-- The instructions that acquires and fences hold back (R163, R164): near accesses, locks and commands; a fence holds back the queries
too. -/
def isNearOrdered : Instr → Bool
  | .lds .. | .ldt .. | .ldc .. | .ldx .. | .st .. | .atom .. | .lock .. | .unlock _ | .cpost .. | .tpost _ | .freeze .. | .thaw .. =>
    true
  | _ => false

/-- The queries of the major CMD, which only a FENCE holds back (R164). -/
def isQuery : Instr → Bool
  | .rgqry .. | .gwqry .. => true
  | _ => false

/-- The special registers SRD reads (R22). -/
def srdOk (n : Nat) : Bool := n ≤ 0x15

/-- The special registers SWR writes (R22, R123). -/
def swrOk (n : Nat) : Bool := n == 0x0D || n == 0x0E || n == 0x0F || n == 0x12 || n == 0x14

end Sys2Proof.Machine
end

