-- ==== Sys2Proof/Machine/Ops.lean ====
section
/-!
DEFINITION. Ops: the named operations over the state. Reading and writing the parts of the package, late results
(R67 to R71), flags (R51), taking a trap (R28 to R31), and the prologue and the completion that every instruction of a
core shares (R9, R16, R59 to R63).
-/

namespace Sys2Proof.Machine

/-! ### Parts of the package -/

/-- A core. -/
def State.core (s : State) (c : Nat) : Core := Table.get Core.reset s.cores c
/-- Writes a core. -/
def State.setCore (s : State) (c : Nat) (x : Core) : State := { s with cores := s.cores.insert c x }
/-- Changes a core. -/
def State.modCore (s : State) (c : Nat) (f : Core → Core) : State := s.setCore c (f (s.core c))
/-- A die. -/
def State.die (s : State) (d : Nat) : Die := Table.get Die.reset s.dies d
/-- Writes a die. -/
def State.setDie (s : State) (d : Nat) (x : Die) : State := { s with dies := s.dies.insert d x }
/-- Changes a die. -/
def State.modDie (s : State) (d : Nat) (f : Die → Die) : State := s.setDie d (f (s.die d))
/-- A context (R328). -/
def State.ctx (s : State) (c : Nat) : Ctx := Table.get Ctx.reset s.ctxs c
/-- Writes a context. -/
def State.setCtx (s : State) (c : Nat) (x : Ctx) : State := { s with ctxs := s.ctxs.insert c x }
/-- Changes a context. -/
def State.modCtx (s : State) (c : Nat) (f : Ctx → Ctx) : State := s.setCtx c (f (s.ctx c))
/-- A bound team, by core and team record. -/
def State.team (s : State) (c r : Nat) : Option Team := (s.core c).teams.find r
/-- Writes a team. -/
def State.setTeam (s : State) (c r : Nat) (x : Team) : State := s.modCore c (fun k => { k with teams := k.teams.insert r x })
/-- Changes a bound team. -/
def State.modTeam (s : State) (c r : Nat) (f : Team → Team) : State :=
  match s.team c r with
  | some t => s.setTeam c r (f t)
  | none => s
/-- Changes a group of a team. -/
def Team.modGroup (t : Team) (g : Nat) (f : Group → Group) : Team := { t with groups := t.groups.modify g f }
/-- Changes a thread of a group. -/
def Group.modThread (g : Group) (l : Nat) (f : Thread → Thread) : Group := { g with threads := g.threads.modify l f }
/-- Changes a group of a bound team. -/
def State.modGroup (s : State) (c r g : Nat) (f : Group → Group) : State := s.modTeam c r (·.modGroup g f)
/-- Changes a thread of a bound team. -/
def State.modThread (s : State) (c r g l : Nat) (f : Thread → Thread) : State := s.modGroup c r g (·.modThread l f)
/-- Changes a hod. -/
def State.modHod (s : State) (c : Nat) (f : Hod → Hod) : State := s.modCore c (fun k => { k with hod := f k.hod })
/-- The die of a core (R2). -/
def dieOf (c : Nat) : Nat := c / Config.coresPerDie
/-- Site of a core on its die (R2): column and row. -/
def siteOf (c : Nat) : Nat × Nat := (c % Config.coresPerDie % 8, c % Config.coresPerDie / 8)
/-- Adds cycles to a core's free-running counter. -/
def State.spend (s : State) (c n : Nat) : State := s.modCore c (fun k => { k with cycles := k.cycles + n })

/-- A core's free-running cycle counter (R22). -/
def State.coreCycles (s : State) (c : Nat) : Nat := (s.core c).cycles + s.cycles

/-- A slot's next instruction: it waits for the slot cycles of the one before it (R124, R195) and for a free number of cycles more, in which
interlocks and contention lie (log 9). -/
def State.beginIssue (s : State) (c slot : Nat) : State :=
  s.spend c (max (s.coreCycles c) ((s.core c).busy.getD slot 0) - s.coreCycles c + Config.extraCycles s.tick)

/-- The slot of a turn's group. -/
def State.slotOf (s : State) (t : Turn) : Nat := (((s.team t.core t.tr).bind (fun m => m.groups[t.grp]?)).map (·.slot)).getD 0

/-- An instruction occupies its slot for some cycles (R124, R195). -/
def State.occupy (s : State) (t : Turn) (cost : Nat) : State :=
  s.modCore t.core (fun k => { k with busy := k.busy.set (s.slotOf t) (s.coreCycles t.core + cost) })

/-- An event by a task that restarts its watchdog (R322). -/
def State.watchRestart (s : State) (task : Nat) : State :=
  match s.sched.tasks.find task with
  | some t => { s with sched := { s.sched with tasks := s.sched.tasks.insert task { t with watch := s.ns } } }
  | none => s

/-! ### Late results (R67 to R71) -/

/-- Every value of the pending write is known and, for the engine, has landed. -/
def Pending.known (p : Pending) : Bool := !p.matrix && p.regs.all (·.2.isSome) && p.preds.all (·.2.isSome)

/-- Whether the old value is still read, by the write's window (R68). -/
def Pending.inWindow (p : Pending) : Bool := p.inRun && decide (0 < p.win)

/-- Whether nothing of the pending write is left. -/
def Pending.isDone (p : Pending) : Bool := p.regs.isEmpty && p.preds.isEmpty && !p.matrix

/-- Writes a register whose value is known. -/
def Thread.putReg (th : Thread) (e : Nat × Option Word) : Thread :=
  match e.2 with
  | some v => th.setReg e.1 v
  | none => th

/-- Writes a predicate whose value is known. -/
def Thread.putPred (th : Thread) (e : Nat × Option Byte) : Thread :=
  match e.2 with
  | some v => th.setPred e.1 v
  | none => th

/-- Lands a pending write in a thread's registers and predicates. -/
def Thread.land (th : Thread) (p : Pending) : Thread := p.preds.foldl Thread.putPred (p.regs.foldl Thread.putReg th)

/-- Lands those pending writes that `f` picks and whose values are known; in its window the old value is still read, so the new one is kept
beside it (R68). -/
def Thread.landSome (th : Thread) (f : Pending → Bool) : Thread :=
  th.pend.foldl (fun th p =>
    if f p && p.known then
      (if p.inWindow then { th with pend := th.pend ++ [{ p with landed := true }] } else th.land p)
    else { th with pend := th.pend ++ [p] }) { th with pend := [] }

/-- What a read makes of a pending write it touches. -/
inductive ReadRule where
  | old | new | free
  deriving DecidableEq, Repr

/-- The read rule of a pending write for the registers and predicates read (R68, R70). -/
def Pending.rule (p : Pending) (regs preds : List Nat) : ReadRule :=
  let hitsP := p.preds.any (fun e => preds.contains e.1)
  let hitsR := p.regs.any (fun e => regs.contains e.1)
  if !hitsP && !hitsR then .old
  else if p.inRun then (if p.win = 0 then .new else .old)
  else if hitsP || p.landed || p.awaitAll || p.awaited.any regs.contains then .new
  else .free

/-- The registers and predicates that an instruction reads and writes in a thread; `fw` are those that an operation of the engine takes by
forwarding (R152), and `kept` the destinations of which its guard keeps a part. -/
structure Touch where
  regs : List Nat
  preds : List Nat
  fw : List Nat
  kept : List Nat
  wregs : List Nat
  wpreds : List Nat
  deriving DecidableEq, Repr

/-- Whether an instruction writes one of a landed write's registers or predicates. -/
def Pending.writtenBy (p : Pending) (k : Touch) : Bool :=
  p.landed && (p.regs.any (fun e => k.wregs.contains e.1) || p.preds.any (fun e => k.wpreds.contains e.1))

/-- A landed write whose window is still open, without what an instruction writes: that write is newer. -/
def Pending.without (p : Pending) (k : Touch) : Pending :=
  { p with regs := p.regs.filter (fun e => !k.wregs.contains e.1), preds := p.preds.filter (fun e => !k.wpreds.contains e.1) }

/-- What of a landed write an instruction writes and does not read: there the landed value stands (R14, R69). -/
def Pending.under (p : Pending) (k : Touch) : Pending :=
  { p with regs := p.regs.filter (fun e => k.wregs.contains e.1 && !k.regs.contains e.1),
           preds := p.preds.filter (fun e => k.wpreds.contains e.1 && !k.preds.contains e.1) }

/-- Makes every value readable that an instruction reads, at the choice `pick` where R70 leaves one; none is an
interlock. -/
def Thread.settle (th : Thread) (k : Touch) (pick : Nat → Bool) : Option Thread :=
  th.pend.foldl (fun acc p =>
    match acc with
    | none => none
    | some th =>
      let regs := if p.matrix then k.regs.diff k.fw else if p.fixed then k.regs ++ k.kept else k.regs
      let take := match p.rule regs k.preds with
        | .old => false
        | .new => true
        | .free => pick p.id && p.known
      if take then (if p.known then some (th.land p) else none)
      else if p.writtenBy k then
        let th := th.land (p.under k)
        some (if (p.without k).isDone then th else { th with pend := th.pend ++ [p.without k] })
      else some { th with pend := th.pend ++ [p] })
    (some { th with pend := [] })

/-- Lands every pending write, as trap entry does (R29, R71); none while some value is not known. -/
def Thread.landAll (th : Thread) : Option Thread :=
  if th.pend.all Pending.known then some (th.pend.foldl Thread.land { th with pend := [] }) else none

/-- Cancels pending writes to registers and predicates that a later instruction names as destinations (R69); one that has landed is pending
no more. -/
def Thread.cancel (th : Thread) (regs preds : List Nat) : Thread :=
  let strip := fun (p : Pending) => if p.landed then p else
    { p with regs := p.regs.filter (fun e => !regs.contains e.1), preds := p.preds.filter (fun e => !preds.contains e.1) }
  { th with pend := (th.pend.map strip).filter (fun p => !p.isDone) }

/-- One more instruction of the run has issued: positions and lookahead windows count it (R62, R68), and a landed write whose window is over
stands in its registers. -/
def Thread.advance (th : Thread) (len : Nat) : Thread :=
  let next : Thread := { th with pc := th.pc + BitVec.ofNat 64 len, pos := th.pos + 1, unchecked := false,
                                 pend := th.pend.map (fun p => if p.inRun then { p with win := p.win - 1 } else p) }
  next.landSome (·.landed)

/-- Fills in a register's value of a pending write. -/
def Thread.resolveReg (th : Thread) (id reg : Nat) (v : Word) : Thread :=
  { th with pend := th.pend.map (fun p => if p.id = id then
      { p with regs := p.regs.map (fun e => if e.1 = reg then (e.1, some v) else e) } else p) }

/-- Lands the near accesses of a thread that younger instructions wait for; none while the value of one is not known (R163, R164). -/
def Thread.landThese (th : Thread) (ids : List Nat) : Option Thread :=
  if th.pend.all (fun p => !ids.contains p.id || p.known) then some (th.landSome (fun p => ids.contains p.id)) else none

/-- Lands the floating-point writes of a thread, as reads of its flags wait for them (R25, R53); none while one is not known. -/
def Thread.landFloat (th : Thread) : Option Thread :=
  if th.pend.all (fun p => !p.fp || p.known) then some (th.landSome (·.fp)) else none

/-! ### Flags (R25, R50, R51) -/

/-- ORs flags into %fflags; %ffpc takes the first word of the earliest instruction in program order that raised one since
%fflags was zero (R25, R51); the instruction was issued at `at_`. -/
def Thread.raise (th : Thread) (fl : FFlags) (ipc at_ : Nat) : Thread :=
  if fl = 0 then th
  else
    let first := th.fflags == 0 || decide (at_ < th.ffat)
    { th with fflags := th.fflags ||| fl, ffpc := if first then BitVec.ofNat 64 ipc else th.ffpc,
              ffat := if first then at_ else th.ffat }

/-! ### Traps (R28 to R31) -/

/-- A mask of lanes. -/
def laneMask (ls : List Nat) : BitVec 32 := ls.foldl (fun m l => m ||| (1#32 <<< l)) 0

/-- %trapcause (R28). -/
def trapCause (code : Nat) (flags : FFlags) (detail : Nat) (lanes : List Nat) : Word :=
  laneMask lanes ++ BitVec.ofNat 16 detail ++ 0#2 ++ flags ++ BitVec.ofNat 8 code

/-- Ends those issue turns, in progress or set aside, that `p` picks (R9). -/
def State.dropTurns (s : State) (p : Turn → Bool) : State :=
  { s with turn := match s.turn with
             | some t => if p t then none else some t
             | none => none,
           parked := s.parked.filter (fun q => !p q.turn) }

/-- Releases the locks and requests of lanes (R187); the word of an empty queue becomes ordinary. -/
def Die.releaseLocks (d : Die) (p : LaneId → Bool) : Die :=
  { d with locks := (d.locks.map (fun e => (e.1, e.2.filter (fun q => !p q.who)))).filter (fun e => !e.2.isEmpty) }

/-- Stops a team for an unhandled trap (R30); no group of it issues again, its matrix operations write nothing (R134), and its locks are
released (R187, R194). -/
def State.stopTeam (s : State) (c r : Nat) (cause pc addr : Word) : State :=
  let s := s.modTeam c r (fun t => if t.state = .running then { t with state := .stopped cause pc addr s.tick } else t)
  let s := s.modCore c (fun k => { k with engine := k.engine.filter (fun o => o.tr != r) })
  (s.modDie (dieOf c) (·.releaseLocks (fun w => w.core == c && w.tr == r))).dropTurns (fun t => t.core == c && t.tr == r)

/-- Whether a lane is a handler thread: it has trapped and not yet returned (R29, R31). -/
def Group.inHandler (g : Group) (lane : Nat) : Bool :=
  match g.frame with
  | none => false
  | some fr => fr.saved.any (fun sv => sv.lane == lane && !sv.back)

/-- Whether a trap of these lanes must wait for the frame (R31): each has returned from the trap that the group's other lanes still handle, so
theirs is a fresh trap and not one in handler mode (log 23). -/
def Group.frameBusy (g : Group) (lanes : List Nat) : Bool :=
  match g.frame with
  | none => false
  | some fr => lanes.all (fun l => fr.saved.any (fun sv => sv.lane == l && sv.back))

/-- A thread set to its handler (R29): run temporaries zero, window unchanged. -/
def Thread.enterHandler (th : Thread) (pc : Nat) : Thread :=
  { th with pc := BitVec.ofNat 64 pc, pos := 0, xfer := none, unchecked := false, status := .run,
            regs := th.regs.filter (fun e => decide (e.1 < 256)) }

/-- What the frame saves of a thread (R29). -/
def Thread.save (th : Thread) (lane : Nat) : SavedThread :=
  { lane := lane, wb := th.wb, temps := th.regs.filter (fun e => decide (256 ≤ e.1)), pos := th.pos, xfer := th.xfer, back := false }

/-- The group with its trapping lanes at the handler and the others held (R29). -/
def Group.enterTrap (g : Group) (lanes : List Nat) (landed : List (Nat × Thread)) (cause pc addr : Word) (handler : Nat) : Group :=
  { g with
    frame := some { cause := cause, trappc := pc, trapaddr := addr, pcWritten := false, saved := landed.map (fun e => e.2.save e.1) },
    threads := g.threads.mapIdx (fun l th =>
      match landed.find? (·.1 = l) with
      | some e => e.2.enterHandler handler
      | none => if lanes.contains l then th else { th with held := true }) }

/-- Takes a trap for a set of threads of one group (R28 to R30): every older write lands first, an interlock while one
is not known; then the frame is saved and the handler entered, or the team stops. None is a trap that must wait. -/
def takeTrapFor (s : State) (c r g : Nat) (set : List Nat) (code : Nat) (flags : FFlags) (detail : Nat) (lanes : List Nat)
    (addr pc : Word) : Option State :=
  match s.team c r with
  | none => some { s with turn := none }
  | some team =>
    match team.groups[g]? with
    | none => some { s with turn := none }
    | some grp =>
      let cause := trapCause code flags detail lanes
      let handler := team.env.handlers.getD grp.role 0
      if handler ≠ 0 && grp.frameBusy set then none
      else if grp.frame.isSome || handler = 0 then some (s.stopTeam c r cause pc addr)
      else
        let landed := set.map (fun l => (l, grp.threads[l]?.bind Thread.landAll))
        if landed.any (·.2.isNone) then none
        else
          let ok := landed.filterMap (fun e => e.2.map (fun th => (e.1, th)))
          let s := s.modGroup c r g (fun grp => grp.enterTrap set ok cause pc addr handler)
          some (s.dropTurns (fun t => t.core == c && t.tr == r && t.grp == g))

/-- A turn whose team has lost GO issues no more (R308, R345). -/
def State.dropStopped (s : State) : State :=
  match s.turn with
  | some t => if (Table.get 0 (s.core t.core).binds t.tr).getLsbD 1 then s else { s with turn := none }
  | none => s

/-- An interlock: the instruction is tried again, a cycle later (R9). -/
def stall (s : State) (c : Nat) : Host.Outcome State Fault Refusal := .next (s.spend c 1).dropStopped

/-- Whether a turn's trap waits for its group's frame: the turn ends, so that the handler's threads issue (R31). -/
def State.frameBusy (s : State) (t : Turn) : Bool :=
  (((s.team t.core t.tr).bind (fun m => m.groups[t.grp]?)).map (·.frameBusy t.lanes)).getD false

/-- A trap of the issue set that must wait: an interlock, or with the frame in use the end of the turn. -/
def trapWaits (s : State) (t : Turn) : Host.Outcome State Fault Refusal :=
  if s.frameBusy t then .next ({ s with turn := none }.spend t.core 1) else stall s t.core

/-- Takes a trap for the whole issue set. -/
def takeTrap (s : State) (t : Turn) (code : Nat) (flags : FFlags) (detail : Nat) (lanes : List Nat) (addr pc : Word) :
    Host.Outcome State Fault Refusal :=
  match takeTrapFor s t.core t.tr t.grp t.lanes code flags detail lanes addr pc with
  | some s => .next s
  | none => trapWaits s t

/-- An illegal-instruction trap of the whole issue set at its first word (R28). -/
def illegal (s : State) (t : Turn) (detail : Nat) (lanes : List Nat) : Host.Outcome State Fault Refusal :=
  takeTrap s t 1 0 detail lanes 0 (BitVec.ofNat 64 t.ipc)

/-! ### Poison (R389 to R391) -/

/-- Whether a task has met an error whose containment is pending (R390). -/
def Hours.contains (h : Hours) (task : Nat) : Bool :=
  h.contained.any (fun d => match d with
    | .consumed t _ _ _ _ => t == task
    | .record _ => false)

/-- A consumed poisoned word (R390), by its unit, the core that consumed it, its place in the unit and its device virtual address (0 where it has
none): the task's groups issue no further, and its containment is pending. -/
def State.consumePoison (s : State) (task unit core place addr : Nat) : State :=
  let ofTask := fun (t : Turn) => ((s.team t.core t.tr).map (fun m => m.ids.task == task)).getD false
  { s with turn := match s.turn with
             | some t => if ofTask t then none else some t
             | none => none,
           hours := { s.hours with contained := if s.hours.contained.contains (.consumed task unit core place addr) then s.hours.contained
                                                else s.hours.contained ++ [.consumed task unit core place addr] } }

/-! ### The prologue of an instruction -/

/-- A lane of the issue set, with its registers readable and its modes. -/
structure LaneCtx where
  lane : Nat
  th : Thread
  m : Modes
  deriving DecidableEq, Repr

/-- An instruction that issues: the turn, the team and group, the lanes of the issue set. -/
structure Issue where
  t : Turn
  team : Team
  grp : Group
  lanes : List LaneCtx
  deriving DecidableEq, Repr

/-- The lanes of an instruction that R14 makes active with S = 1. -/
def Issue.acting (is : Issue) : List LaneCtx := is.lanes.filter (fun c => onEl c.m.guard 1 0)

/-- The lanes that an instruction acts in. -/
def Issue.actingLanes (is : Issue) : List Nat := is.acting.map (·.lane)

/-- Registers an engine operation takes by forwarding (R152): accumulator input, MCON source, MVT y. -/
def forwardFields : Instr → List Nat
  | .mma d _ _ _ _ z _ _ _ ta _ => if z == 1#1 then [] else fieldRange d (tileRegs ta)
  | .mmas d _ _ _ _ z .. => if z == 1#1 then [] else fieldRange d 4
  | .mtrn _ b _ _ t | .mperm _ b _ _ _ t _ _ | .mrsum _ b _ _ t _ => fieldRange b (tileRegs t)
  | .mvt d _ _ _ _ z mm _ _ => if z == 1#1 then [] else fieldRange d (mm.toNat / 2 + 1)
  | _ => []

/-- Registers read beside the named fields: the link register (R118). -/
def linkReads (i : Instr) (budget : Nat) : List Nat :=
  match i with
  | .ret => [budget - 1]
  | _ => []

/-- Predicates an instruction reads, its guard included. -/
def allPreds (i : Instr) (p : Option Pfx) : List Nat :=
  match p with
  | some p => pfxGp p :: readPreds i
  | none => readPreds i

/-- A bad special-register number (R22, R61 item 11). -/
def badSpecial : Instr → Bool
  | .srd _ n => !srdOk n.toNat
  | .swr _ n => !swrOk n.toNat
  | _ => false

/-- The window base that WIN sets (R16, R121). -/
def windowBase : Instr → Option Nat
  | .win b => some (8 * b.toNat)
  | _ => none

/-- Lanes in which the instruction names a register at or above the budget, or sets such a window base (R16). -/
def windowLanes (i : Instr) (budget : Nat) (ls : List (Nat × Thread)) : List Nat :=
  (ls.filter (fun e => (windowFields i).any (fun f => decide (f < 120) && decide (budget ≤ e.2.wb + f)) ||
    (windowBase i).any (fun w => decide (budget ≤ w)))).map (·.1)

/-- The traps that the words and the windows decide, in the order of R61 items 8 to 12, whatever the guard (R60): the
code, the DETAIL and the causing lanes. What the state decides of item 11 stands in badUseLanes. -/
def wordTraps (i : Instr) (t : Turn) (g : Group) (ls : List (Nat × Thread)) : Option (Nat × Nat × List Nat) :=
  let long := (ls.filter (fun e => decide (24 ≤ e.2.pos))).map (·.1)
  let isTrl := match i with
    | .trl .. => true
    | _ => false
  if !isTrl && !long.isEmpty then some (1, 3, long)
  else if endsRun i && !t.closes then some (1, 4, t.lanes)
  else if !roleOk g.role i then some (1, 5, t.lanes)
  else if badSpecial i then some (1, 6, t.lanes)
  else
    let w := windowLanes i g.budget ls
    if !w.isEmpty then some (3, 0, w) else none

/-- The requests of a lane that no bank has performed yet (R163, R164, R205), by pending write, each with what the lane does. -/
def State.openNear (s : State) (c r g l : Nat) : List (Nat × Nat × NearOp) :=
  let of := fun (q : NearReq) =>
    if q.core = c && q.tr = r && q.grp = g then (q.lanes.filter (·.1 = l)).map (fun e => (q.pend, e.2.1, e.2.2)) else []
  (s.die (dieOf c)).tileReqs.flatMap of ++
    (List.range Config.coresPerDie).flatMap (fun k => (s.core (dieOf c * Config.coresPerDie + k)).peerReqs.flatMap of)

/-- Whether near accesses of a lane are still to be performed. -/
def State.outstanding (s : State) (c r g l : Nat) : Bool := !(s.openNear c r g l).isEmpty

/-- What an instruction waits for by acquires and fences before it (R163, R164): near accesses by their pending writes. -/
def Thread.orderedBehind (th : Thread) (i : Instr) : List Nat :=
  (if isNearOrdered i then th.acqs else []) ++ (if isNearOrdered i || isQuery i then th.fences else [])

/-- Whether a lane may issue an instruction that acquires and fences hold back (R163, R164): none is an interlock. -/
def passOrder (s : State) (t : Turn) (i : Instr) (l : Nat) (th : Thread) : Option Thread :=
  if !isNearOrdered i && !isQuery i then some th
  else
    let ids := th.orderedBehind i
    let busy := s.openNear t.core t.tr t.grp l
    if (th.relFence && !busy.isEmpty) || busy.any (fun e => ids.contains e.1) then none
    else (th.landThese ids).map (fun th =>
      { th with relFence := false, acqs := if isNearOrdered i then [] else th.acqs, fences := [] })

/-! ### What the state decides of an instruction (R61 item 11) -/

/-- Whether the threads of a group stand arrived at a convergence register with a word at another address (R131). -/
def Group.arrivedElsewhere (g : Group) (cv ipc : Nat) : Bool :=
  g.threads.any (fun th => match th.status with
    | .wait (.matrix a) => a.cv == cv && a.ipc != ipc
    | _ => false)

/-- Whether a thread stands arrived at a matrix operation on a convergence register. -/
def Thread.arrivedAt (th : Thread) (cv : Nat) : Bool :=
  match th.status with
  | .wait (.matrix a) => a.cv == cv
  | _ => false

/-- Whether a register's current phase holds a signature or an arrival. -/
def Team.cvBusy (t : Team) (cv : Nat) : Bool :=
  match t.cvs.find cv with
  | none => false
  | some v => t.groups.any (fun g => g.threads.any (fun th => (th.signed.find cv).any (fun k => decide (v.q < k)) || th.arrivedAt cv))

/-- Groups that a mask names. -/
def maskGroups (m : Word) : List Nat := (List.range 32).filter (fun k => m.getLsbD k)

/-- The convergence register that a matrix word names. -/
def convOf : Instr → Nat
  | .mma _ _ _ _ _ _ _ _ cv _ _ | .mmas _ _ _ _ _ _ _ _ cv _ _ _ | .mtrn _ _ _ cv _ | .mperm _ _ _ _ cv _ _ _
  | .mrsum _ _ _ cv _ _ | .mtok cv _ => cv.toNat
  | _ => 0

/-- The re-execution that a capture serves (R138): its threads have returned from the trap. -/
def Issue.capture (is : Issue) : Option Capture :=
  if is.t.lanes.any is.grp.inHandler then none
  else is.team.captures.find? (fun k => k.grp = is.t.grp && k.ipc = is.t.ipc && is.t.lanes.all (fun l => k.lanes.contains l))

/-- Whether a matrix word may not be used here (R131, R132): its register is unset or without the group, or threads of the group stand
arrived with another word. -/
def Issue.badMatrix (is : Issue) (i : Instr) (writes : Bool) : Bool :=
  match is.team.cvs.find (convOf i) with
  | none => true
  | some v => !v.members.contains is.t.grp || (!(writes && is.capture.isSome) && is.grp.arrivedElsewhere (convOf i) is.t.ipc)

/-- Whether SIGN or CVWAIT names a register that is unset or without the group (R185). -/
def Issue.badCv (is : Issue) (cv : Nat) : Bool :=
  match is.team.cvs.find cv with
  | none => true
  | some v => !v.members.contains is.t.grp

/-- Settings that BINIT does not take (R174). -/
def badSettings (v : Nat) : Bool := decide (v % 2 ^ 16 = 0) && decide (v / 2 ^ 16 % 2 ^ 32 = 0)

/-- Settings that SRINIT does not take (R181): each barrier needs an arrival or, a full one, bytes. -/
def badRingSettings (v : Nat) : Bool := decide (v / 2 ^ 16 % 2 ^ 16 = 0) || (decide (v % 2 ^ 16 = 0) && decide (v / 2 ^ 32 = 0))

/-- Whether a ring is set and not CLOSED. -/
def Team.ringOpen (t : Team) (r : Nat) : Bool :=
  match t.rings.find r with
  | none => false
  | some q => q.st != .closed

/-- A value that %xmode does not take (R24). -/
def badXmode (v : Word) : Bool :=
  decide (2 ^ 17 ≤ v.toNat) || decide (6 ≤ v.toNat % 8) || decide (6 ≤ v.toNat / 64 % 8)

/-- The lanes for which an instruction takes DETAIL 6 by the state it meets or a value it is given (R61 item 11). -/
def badUseLanes (i : Instr) (is : Issue) : List Nat :=
  let once := fun (f : LaneCtx → Bool) => if (is.acting.head?).any f then is.actingLanes else []
  match i with
  | .mma .. | .mmas .. | .mtrn .. | .mperm .. | .mrsum .. => if is.badMatrix i true then is.t.lanes else []
  | .mtok .. => if is.badMatrix i false then is.t.lanes else []
  | .sign cv | .cvwait cv => if is.badCv cv.toNat then is.actingLanes else []
  | .sracq _ _ r | .srput _ _ r _ _ | .srget _ _ r | .srrel _ r _ | .srclose r => if (is.team.rings.find r.toNat).isNone then is.actingLanes else []
  | .binit _ a => once (fun c => badSettings (c.th.rd a).toNat)
  | .srinit _ r a _ _ => once (fun c => is.team.ringOpen r.toNat || badRingSettings (c.th.rd a).toNat)
  | .cvset a cv => once (fun c =>
      let ms := maskGroups (c.th.rd a)
      !([1, 2, 4, 8].contains ms.length && ms.all (fun m => decide (m < is.team.groups.length))) || is.team.cvBusy cv.toNat)
  | .course _ => if is.team.env.stream then is.actingLanes else []
  | .retTrap => if is.actingLanes.any (fun l => !is.grp.inHandler l) then is.actingLanes else []
  | .swr a n => if n = 0x0D then (is.acting.filter (fun c => badXmode (c.th.rd a))).map (·.lane) else []
  | _ => []

/-- What an instruction reads and writes in a thread. A matrix word writes when its result lands. -/
def touchOf (i : Instr) (t : Turn) (budget : Nat) (th : Thread) : Touch :=
  let acts := th.guard t.pfx != 0 && roleNeed i != .matrix
  { regs := (readFields i).map th.ix ++ linkReads i budget, preds := allPreds i t.pfx, fw := (forwardFields i).map th.ix,
    kept := if th.guard t.pfx = 0xFF then [] else (writeFields i).map th.ix,
    wregs := if acts then (writeFields i).map th.ix ++ linkWrites i budget else [], wpreds := if acts then writePreds i else [] }

/-- A poisoned register that a lane's instruction reads (R390): a named source, or a destination of which its guard keeps a part. -/
def Thread.poisonedReg (th : Thread) (i : Instr) (p : Option Pfx) (extra : List Nat) : Option Nat :=
  let kept := if th.guard p = 0xFF then [] else (writeFields i).map th.ix
  ((readFields i).map th.ix ++ extra ++ kept).find? th.poison.contains

/-- What the prologue finds. -/
inductive Prologue where
  | done (o : Host.Outcome State Fault Refusal)
  | go (s : State) (is : Issue)

/-- The prologue of every instruction (R9, R16, R59 to R63, R68, R163): the issue set is found, the traps that the words and the state decide
are taken in the order of R61, and every register it reads is made readable, or the instruction interlocks. -/
def prologue (i : Instr) (s : State) : Prologue :=
  match s.turn with
  | none => .done (.refused .noIssueSet)
  | some t =>
    match s.team t.core t.tr with
    | none => .done (.next { s with turn := none })
    | some team =>
      match team.groups[t.grp]? with
      | none => .done (.next { s with turn := none })
      | some g =>
        let ls := t.lanes.filterMap (fun l => g.threads[l]?.map (fun th => (l, th)))
        if ls.any (fun e => e.2.pend.any (·.hold)) then .done (stall s t.core)
        else
          let words := wordTraps i t g ls
          let trapOf := fun (x : Nat × Nat × List Nat) => takeTrap s t x.1 0 x.2.1 x.2.2 0 (BitVec.ofNat 64 t.ipc)
          match words.filter (fun x => x.1 != 3) with
          | some x => .done (trapOf x)
          | none =>
            let ready := ls.map (fun e => (e.1, e.2.settle (touchOf i t g.budget e.2) (Config.unnamedRead s.tick e.1)))
            if ready.any (·.2.isNone) then .done (stall s t.core)
            else
              let is : Issue := { t := t, team := team, grp := g,
                                  lanes := ready.filterMap (fun e => e.2.map (fun th => ⟨e.1, th, th.modes t.pfx⟩)) }
              let poison := is.lanes.findSome? (fun c => c.th.poisonedReg i t.pfx (linkReads i g.budget))
              let bad := if poison.isSome then [] else badUseLanes i is
              if !bad.isEmpty then .done (illegal s t 6 bad)
              else match words with
                | some x => .done (trapOf x)
                | none =>
                  let passed := is.lanes.map (fun c => (passOrder s t i c.lane c.th).map (fun th => { c with th := th }))
                  if passed.any (·.isNone) then .done (stall s t.core)
                  else match poison with
                    | some r => .done (.next (s.consumePoison team.ids.task 1 t.core r 0))
                    | none => .go s { is with lanes := passed.filterMap id }

/-- Issues an instruction: the prologue, then its own effect. -/
def issue (i : Instr) (s : State) (body : State → Issue → Host.Outcome State Fault Refusal) : Host.Outcome State Fault Refusal :=
  match prologue i s with
  | .done o => o
  | .go s is => body s is

/-! ### Completion of an instruction -/

/-- Cycles an instruction occupies its slot for (R124, R195); bank costs are added by the near instructions. -/
def slotCycles : Instr → Nat
  | .imul _ _ _ w | .imulh _ _ _ w | .imulhn _ _ _ w | .imad _ _ _ w | .imulNatural _ _ _ w => if w.toNat = 0 then 2 else 1
  | .wmacl .. | .wmach .. | .cvts .. => 2
  | .fadd _ _ _ t | .fsub _ _ _ t | .fmul _ _ _ t | .ffma _ _ _ t | .ffms _ _ _ t | .fnma _ _ _ t | .fcps _ _ _ t | .fabs _ _ t
  | .fneg _ _ t => if t.toNat ≥ 2 then 2 else 1
  | .fdiv .. | .fsqrt .. | .exp2 .. | .log2 .. | .rcp .. | .rsq .. | .sin .. | .cos .. | .tanh .. | .sigm .. | .sftp ..
  | .idivSigned .. | .idivNatural .. | .iremSigned .. | .iremNatural .. => 4
  | .shfl .. | .bcast .. | .vote .. | .voteBallot .. | .matchLanes .. | .reduce .. | .scanInclusive .. | .scanExclusive .. => 2
  | _ => 1

/-- Whether a thread can go on issuing. -/
def Thread.runnable (th : Thread) : Bool := th.status == .run && !th.held

/-- Writes back the threads of an issue set, which occupies its slot; the turn goes on with the lanes that can still issue
(R9, R13). -/
def complete (s : State) (t : Turn) (ths : List (Nat × Thread)) (cost : Nat) : State :=
  let s := s.modGroup t.core t.tr t.grp (fun g => ths.foldl (fun g e => g.modThread e.1 (fun _ => e.2)) g)
  let left := (ths.filter (fun e => e.2.runnable)).map (·.1)
  let s := s.occupy t cost
  { s with turn := if left.isEmpty then none else some { t with lanes := left } }.dropStopped

/-- What one lane's computation gives: registers and predicates written, flags, the generator's new state, and whether
an active sub-element is non-finite. -/
structure LaneOut where
  regs : List (Nat × Word)
  preds : List (Nat × Byte)
  flags : FFlags
  seed : Option Word
  bad : Bool
  deriving DecidableEq, Repr

/-- A lane that writes nothing. -/
def LaneOut.none : LaneOut := { regs := [], preds := [], flags := 0, seed := Option.none, bad := false }

/-- A lane that writes one register. -/
def LaneOut.reg (r : Nat) (v : Word) : LaneOut := { LaneOut.none with regs := [(r, v)] }

/-- A lane that writes one predicate. -/
def LaneOut.pred (p : Nat) (v : Byte) : LaneOut := { LaneOut.none with preds := [(p, v)] }

/-- A pending write of known values (R67). -/
def Pending.ofOut (id win : Nat) (o : LaneOut) : Pending :=
  { id := id, regs := o.regs.map (fun e => (e.1, some e.2)), preds := o.preds.map (fun e => (e.1, some e.2)), win := win,
    inRun := true, awaited := [], awaitAll := false, landed := false, near := false, matrix := false, hold := false, fp := false,
    fixed := false }

/-- A thread with the generator's new state, where it has one. -/
def Thread.withSeed (th : Thread) (v : Option Word) : Thread := { th with seed := v.getD th.seed }

/-- A thread past an instruction: its destinations cancel older writes (R69); flags and generator change at issue. -/
def Thread.past (th : Thread) (i : Instr) (t : Turn) (id : Nat) (o : LaneOut) : Thread :=
  (((th.cancel ((writeFields i).map th.ix) (writePreds i)).advance t.len).raise o.flags t.ipc id).withSeed o.seed

/-- A thread takes its lane's results: they are written, or pending for a long-latency instruction (R67), `fp` for floating point. -/
def Thread.receive (th : Thread) (id : Nat) (late : Option Nat) (fp : Bool) (o : LaneOut) : Thread :=
  match late with
  | some la => if o.regs.isEmpty && o.preds.isEmpty then th else { th with pend := th.pend ++ [{ Pending.ofOut id la o with fp := fp }] }
  | Option.none => th.land (Pending.ofOut id 0 o)

/-- A thread after its lane's results. -/
def Thread.finish (th : Thread) (i : Instr) (t : Turn) (id : Nat) (late : Option Nat) (o : LaneOut) : Thread :=
  (th.past i t id o).receive id late (floatLate i) o

/-- Lanes that would write a non-finite result under their effective NFT (R52). -/
def nftLanes (ls : List LaneCtx) (outs : List LaneOut) : List Nat :=
  ((ls.zip outs).filter (fun e => e.1.m.nft && e.2.bad)).map (·.1.lane)

/-- Commits an instruction's results in every lane, or takes the non-finite trap (R52, R83). With NFT a special function
has no lookahead (R71): in every lane of an issue set in which some lane's effective NFT is set (the model's choice, log 83). -/
def commitOuts (i : Instr) (s : State) (is : Issue) (nft : Bool) (outs : List LaneOut) : Host.Outcome State Fault Refusal :=
  let bad := if nft then nftLanes is.lanes outs else []
  if !bad.isEmpty then takeTrap s is.t 7 flagNF 0 bad 0 (BitVec.ofNat 64 is.t.ipc)
  else
    let late := if nft && is.lanes.any (·.m.nft) then Option.none else lookahead i
    .next (complete s is.t ((is.lanes.zip outs).map (fun e => (e.1.lane, e.1.th.finish i is.t s.tick late e.2))) (slotCycles i))

/-- An instruction that computes each lane by itself (R83). -/
def simd (i : Instr) (s : State) (nft : Bool) (f : LaneCtx → LaneOut) : Host.Outcome State Fault Refusal :=
  issue i s (fun s is => commitOuts i s is nft (is.lanes.map f))

/-- An instruction that computes over the lanes together (R110). -/
def crossLane (i : Instr) (s : State) (f : List LaneCtx → List LaneOut) : Host.Outcome State Fault Refusal :=
  issue i s (fun s is => commitOuts i s is false (f is.lanes))

end Sys2Proof.Machine
end

