-- ==== Sys2Proof/Machine/Flags.lean ====
section
/-!
DEFINITION. Flags: the flag computations and the generator steps of the instructions that round (R43, R50 to R53): one
lane's active elements in ascending order, their results, their flags and whether one is non-finite.
-/

namespace Sys2Proof.Machine

/-- The rounding of one element under a lane's modes (R38), with the generator's word and, for a conversion, its source
unit (R44). -/
def Modes.rounding (m : Modes) (rnd : Nat) : Rounding :=
  { rm := m.rm, sat := m.sat, ftz := m.ftz, rnd := rnd, srcUnit := none }

/-- The elements an instruction forms in one lane: number, bits and flags of each, and the generator's state after them. -/
structure ElemRun where
  els : List (Nat × Nat × FFlags)
  seed : Word
  deriving DecidableEq, Repr

/-- Forms elements in ascending order; with `steps` the generator steps once before each (R43). -/
def formEls (steps : Bool) (f : Nat → Nat → Nat × FFlags) : List Nat → Word → ElemRun
  | [], seed => { els := [], seed := seed }
  | i :: r, seed =>
    let seed := if steps then seedStep seed else seed
    let v := f (seedRnd seed) i
    let rest := formEls steps f r seed
    { els := (i, v.1, v.2) :: rest.els, seed := rest.seed }

/-- The OR of the flags of the elements (R50). -/
def ElemRun.flags (r : ElemRun) : FFlags := r.els.foldl (fun fl e => fl ||| e.2.2) 0

/-- The elements written into a word at width w, from element `base` on. -/
def ElemRun.into (r : ElemRun) (w base : Nat) (d : Word) : Word := r.els.foldl (fun x e => setEl w x (base + e.1) e.2.1) d

/-- The active elements of S under guard bits. -/
def activeEls (S : Nat) (guard : Byte) : List Nat := (List.range S).filter (onEl guard S)

/-- Whether the effective mode of a lane is SR (R43). -/
def LaneCtx.stochastic (c : LaneCtx) : Bool := c.m.rm == 5

/-- A lane of an instruction that rounds each active sub-element into format T (R97, R106): `f` is given the rounding
and the sub-element. -/
def floatLane (T : Fmt) (d : BitVec 7) (rounds : Bool) (f : Rounding → Nat → Nat × FFlags) (c : LaneCtx) : LaneOut :=
  let steps := rounds && c.stochastic
  let run := formEls steps (fun rnd i => f (c.m.rounding rnd) i) (activeEls (64 / T.width) c.m.guard) c.th.seed
  { regs := [(c.th.ix d.toNat, run.into T.width 0 (c.th.rd d))], preds := [], flags := run.flags,
    seed := if steps then some run.seed else none, bad := run.els.any (fun e => T.nonFinite e.2.1) }

/-- A lane of an instruction that writes a predicate from S comparisons, with flags (R19, R99). -/
def predLane (S : Nat) (p : BitVec 4) (f : Nat → Bool × FFlags) (c : LaneCtx) : LaneOut :=
  { regs := [], preds := [(p.toNat, predEls S c.m.guard (c.th.pred p.toNat) (fun i => (f i).1))],
    flags := (activeEls S c.m.guard).foldl (fun fl i => fl ||| (f i).2) 0, seed := none, bad := false }

/-- The flags of a thread that its trap enables let through (R53). -/
def Thread.enabledFlags (th : Thread) : FFlags := th.fflags &&& th.xte

end Sys2Proof.Machine
end

