-- ==== Sys2Proof/Machine/Regions.lean ====
section
/-!
DEFINITION. Regions: the effective state of an address (R338, R339), for the package and as each die's copy of the table has it, and the key
that an address is stored under (R403).
-/

namespace Sys2Proof.Machine

/-- The effective state of an address (R339). -/
inductive Effective where
  | shared
  | priv (die : Nat)
  | frozen (n : Nat)
  | thawing
  deriving DecidableEq, Repr

/-- Whether a region entry covers an address. -/
def Region.covers (r : Region) (va : Nat) : Bool :=
  r.valid && decide (r.base * 2 ^ 16 ≤ va) && decide (va < (r.base + r.size) * 2 ^ 16)

/-- The covering entries of an address, by index. -/
def Ctx.covering (k : Ctx) (va : Nat) : Table Region := k.regions.filter (fun e => e.2.covers va)

/-- The effective state of an address, by the freeze counts and thaws that a copy of the table holds. -/
def Ctx.effectiveBy (k : Ctx) (count : Region → Nat) (thaw : Region → Bool) (va : Nat) : Effective :=
  let cs := k.covering va
  let n := cs.foldl (fun m e => max m (count e.2)) 0
  if n > 0 then .frozen n
  else if cs.any (fun e => thaw e.2) then .thawing
  else match cs with
    | [] => .shared
    | e :: _ => if e.2.priv then .priv e.2.ownerDie else .shared

/-- The effective state of an address. -/
def Ctx.effective (k : Ctx) (va : Nat) : Effective := k.effectiveBy (·.fcount) (·.thawing) va

/-- Whether an address is frozen. -/
def Ctx.frozen (k : Ctx) (va : Nat) : Bool :=
  match k.effective va with
  | .frozen _ => true
  | _ => false

/-- The freeze count that a die's copy of an entry holds (R339). -/
def Region.countOn (r : Region) (die : Nat) : Nat := if r.lag.getLsbD die then r.wasCount else r.fcount

/-- Whether a die's copy of an entry holds a thaw in progress (R339). -/
def Region.thawOn (r : Region) (die : Nat) : Bool := if r.lag.getLsbD die then r.wasThawing else r.thawing

/-- The effective state of an address as a die has it (R339). -/
def Ctx.effectiveOn (k : Ctx) (die va : Nat) : Effective := k.effectiveBy (·.countOn die) (·.thawOn die) va

/-- An entry whose freeze state changes: each die applies the change at a moment of its own (R339). -/
def Region.change (r : Region) (f : Region → Region) : Region := { f r with lag := 0xF, wasCount := r.fcount, wasThawing := r.thawing }

/-- An entry once every die has applied its last change. -/
def Region.applied (r : Region) : Region := { r with lag := 0 }

/-- A die meets an address: it may apply now what its copies of the entries there still lack (R339). -/
def State.applyRegions (s : State) (die ctx va : Nat) : State :=
  if ((s.ctx ctx).covering va).any (fun e => e.2.lag.getLsbD die) && Config.freeChoice s.tick (va + die * 2 ^ 48) % 2 == 1 then
    s.modCtx ctx (fun k => { k with regions := k.regions.map (fun (e : Nat × Region) =>
      (e.1, if e.2.covers va then { e.2 with lag := e.2.lag &&& ~~~ (1#4 <<< die) } else e.2)) })
  else s

/-! ### Keys (R403) -/

/-- The number of the key under which a context's address is stored: the shared key that the entry covering it names, or the context's own. -/
def State.cryptOf (s : State) (ctx va : Nat) : Nat :=
  let k := s.ctx ctx
  match k.covering va with
  | [] => k.keyNo
  | e :: _ =>
    if e.2.keyid = 0 then k.keyNo
    else ((s.keystone.shared.find? (fun x => x.1 == k.owner && x.2.1 == e.2.keyid)).map (·.2.2)).getD 0

/-- The aperture address of a tile-store grant offset (R331). -/
def apertureAddr (die off : Nat) : Nat := 0xFFFF00000000 + die * 0x2000000 + off

end Sys2Proof.Machine
end

