-- ==== Sys2Proof/Machine/Far.lean ====
section
/-!
DEFINITION. Far: device memory. Placement (R415), page tables and TLBs (R332 to R336), the home slices (R219, R253), the
dies' L2 sectors (R265, R266), counted lines (R267, R271), drains and invalidations (R254, R256), release records
(R259, R260, R262) and resolution (R269). A byte's key is LOC x 2^52 plus its physical address; a sector's is key / 64, a
line's key / 256.
-/

namespace Sys2Proof.Machine

/-! ### Placement (R415) -/

/-- f of R415. -/
def placeHash (a : Nat) : Nat := (a / 2 ^ 8) ^^^ (a / 2 ^ 13) ^^^ (a / 2 ^ 18)

/-- Healthy slices of a die, ascending. -/
def State.healthySlices (s : State) (die : Nat) : List Nat :=
  (List.range 32).filter (fun k => !s.hours.fenced.slices.contains (die * 32 + k))

/-- Healthy slices of the package by package slice number, ascending. -/
def State.packageSlices (s : State) : List Nat :=
  ((List.range Config.dies).filter (fun d => (s.die d).state == .online)).flatMap (fun d => (s.healthySlices d).map (d * 32 + ·))

/-- The slice of a die that holds its copy of a sector, as a package slice number. -/
def State.dieSlice (s : State) (die key : Nat) : Nat :=
  let h := s.healthySlices die
  die * 32 + h.getD (placeHash key % h.length) 0

/-- The die that carries an HBM address's stack. -/
def stackDie (phys : Nat) : Nat := phys / 4096 % 12 / 3

/-- The home slice of a key, as a package slice number. -/
def State.homeSlice (s : State) (key : Nat) : Nat :=
  if key / 2 ^ 52 = 0 then s.dieSlice (stackDie key) key
  else
    let h := s.packageSlices
    h.getD (placeHash key % h.length) 0

/-- The die of a key's home slice. -/
def State.homeDie (s : State) (key : Nat) : Nat := if key / 2 ^ 52 = 0 then stackDie key else s.homeSlice key / 32

/-- Whether a key's home slice is in service (R398). -/
def State.homeUp (s : State) (key : Nat) : Bool := (s.die (s.homeDie key)).state == .online

/-- Whether a key lies in a peer's memory (R359). -/
def isPeerKey (key : Nat) : Bool := key / 2 ^ 52 == 2

/-- Whether a die's own slice serves a key at once: it holds the home, and the memory is the package's (R252, R359). -/
def State.homedOn (s : State) (die key : Nat) : Bool := s.homeDie key == die && !isPeerKey key

/-- The set of a line within a slice. -/
def sliceSet (key : Nat) : Nat := ((key / 2 ^ 13) ^^^ (key / 2 ^ 22)) % 512

/-- The port of the interleave set that holds a second-tier address, and its device address there (R361). -/
def tierPort (ports a : Nat) : Nat × Nat := (a / 4096 % ports, a / (4096 * ports) * 4096 + a % 4096)

/-- Whether a byte of HBM lies in a fenced channel of its stack: it is absent (R4; the model's choice of what an access finds there is log 85). -/
def State.channelGone (s : State) (key : Nat) : Bool :=
  key / 2 ^ 52 == 0 && !s.hours.fenced.channels.isEmpty && s.hours.fenced.channels.contains (key / 4096 % 12 * 32 + Config.hbmChannel key % 32)

/-! ### Stored bytes (R403) -/

/-- A byte of memory as a key reads it: under another key than its own it is unspecified, and the same at every read. -/
def State.plainByte (s : State) (ck key : Nat) : Byte :=
  match s.farKeys.find (key / 64) with
  | none => s.far.read key
  | some t => if t.1 = ck then s.far.read key else Config.scramble t.1 t.2 ck key

/-- An aligned word of 8 bytes of memory as a key reads it. -/
def State.plainWord (s : State) (ck a : Nat) : Nat :=
  match s.farKeys.find (a / 64) with
  | none => s.far.readLE a 8
  | some t => if t.1 = ck then s.far.readLE a 8 else (List.range 8).foldr (fun i v => (Config.scramble t.1 t.2 ck (a + i)).toNat + 256 * v) 0

/-- A sector that is about to be written under a key: its other bytes become what that key reads there. -/
def State.claimSector (s : State) (ck sector : Nat) : State :=
  match s.farKeys.find sector with
  | none => { s with farKeys := s.farKeys.insert sector (ck, s.tick) }
  | some t =>
    if t.1 = ck then s
    else
      { s with far := (List.range 64).foldl (fun (m : Memory) i => m.write (64 * sector + i) (Config.scramble t.1 t.2 ck (64 * sector + i))) s.far,
               farKeys := s.farKeys.insert sector (ck, s.tick) }

/-! ### Page tables (R331 to R336) -/

/-- What a walk ends in: a page, a page fault, a permission fault, a poisoned entry, or an entry whose home is out of service. -/
inductive Xlate where
  | page (l : Leaf)
  | fault (base size : Nat)
  | denied
  | poison (at_ : Nat)
  | wait
  deriving DecidableEq, Repr

/-- What a walker reads at the home slice of an entry. -/
inductive Pte where
  | entry (p : Nat)
  | absent
  | poison
  | wait
  deriving DecidableEq, Repr

/-- An entry of a context's page table, which is stored under the context's own key (R403); beyond the HBM, or in a fenced channel, there is none
(log 85). -/
def State.pte (s : State) (ctx at_ : Nat) : Pte :=
  if Config.hbmBytes < at_ + 8 || s.channelGone at_ then .absent
  else if !s.homeUp at_ then .wait
  else if s.hours.poison.contains (.far (at_ / 8)) then .poison
  else .entry (s.plainWord (s.ctx ctx).keyNo at_)

/-- First address bit below a level's index, and its entries (R332). -/
def levelShift : Nat → Nat
  | 0 => 16
  | n + 1 => 21 + 9 * n

/-- Entries of a level's table. -/
def levelCount (level : Nat) : Nat := if level = 0 then 32 else 512

/-- Bits [hi : lo] of a number. -/
def bitsOf (n lo w : Nat) : Nat := n / 2 ^ lo % 2 ^ w

/-- The page that a level-`level` entry stands for (R332, R336). -/
def pageBase (level va : Nat) : Nat := va / 2 ^ levelShift level * 2 ^ levelShift level

/-- Whether a page passes the capacity of its memory: of the second tier (R361), and, which is the model's choice, of the HBM (log 85). -/
def passesCapacity (loc addr size : Nat) : Bool :=
  (loc == 1 && decide (Config.secondTierBytes < addr + size)) || (loc == 0 && decide (Config.hbmBytes < addr + size))

/-- A walk from the table of a level down (R332, R333, R336, R361). -/
def walkFrom (rd : Nat → Pte) (ctx va : Nat) : Nat → Nat → Xlate
  | level, table =>
    match rd (table + 8 * (va / 2 ^ levelShift level % levelCount level)) with
    | .absent => .denied
    | .wait => .wait
    | .poison => .poison (table + 8 * (va / 2 ^ levelShift level % levelCount level))
    | .entry p =>
      let size := 2 ^ levelShift level
      let addr := bitsOf p 8 44 * 256
      let loc := bitsOf p 52 2
      let mig := p.testBit 54
      if bitsOf p 5 3 ≠ 0 ∨ bitsOf p 56 8 ≠ 0 ∨ loc = 3 then .denied
      else if !p.testBit 0 then (if p.testBit 55 && level != 3 then .fault (pageBase level va) size else .denied)
      else if p.testBit 1 then
        if level = 3 ∨ addr % size ≠ 0 ∨ (mig && level == 2) || passesCapacity loc addr size then .denied
        else if loc = 1 ∧ mig then .fault (pageBase level va) size
        else .page { ctx := ctx, base := pageBase level va, size := size, key := loc * 2 ^ 52 + addr, r := p.testBit 2, w := p.testBit 3,
                     comb := p.testBit 4 }
      else match level with
        | 0 => .denied
        | n + 1 => if loc ≠ 0 ∨ addr % (if n = 0 then 256 else 4096) ≠ 0 then .denied else walkFrom rd ctx va n addr

/-- Whether a page fault's page holds an address of a context. -/
def PageFault.covers (f : PageFault) (ctx va : Nat) : Bool := f.ctx == ctx && decide (f.base ≤ va) && decide (va < f.base + f.size)

/-- The page fault that the scheduler core is resolving at an address: its entry is being changed (R336, R337). -/
def State.changing (s : State) (ctx va : Nat) : Option PageFault := s.sched.faults.find? (fun f => f.begun.isSome && f.covers ctx va)

/-- The walk of a virtual address by its context's page table, which the walkers read at the home slices; a page whose memory is lost is
denied (R398), and one whose entry is being changed faults (R336). -/
def State.walk (s : State) (ctx va : Nat) : Xlate :=
  if 0xFFFF00000000 ≤ va then .denied
  else if s.hours.lostPages.any (fun p => p.1 == ctx && decide (p.2.1 ≤ va) && decide (va < p.2.1 + p.2.2)) then .denied
  else match s.changing ctx va with
    | some f => .fault f.base f.size
    | none => walkFrom (s.pte ctx) ctx va 3 (s.ctx ctx).ptroot

/-- A page fault arrives (R337): it joins those that are to be resolved, unless its page is among them. -/
def State.askPage (s : State) (ctx va : Nat) : State :=
  match s.walk ctx va with
  | .fault base size =>
    if s.sched.faults.any (fun f => f.ctx == ctx && f.base == base) then s
    else { s with sched := { s.sched with faults := s.sched.faults ++ [{ ctx := ctx, base := base, size := size, va := va, begun := none }] } }
  | _ => s

/-- A TLB entry that holds an address. -/
def tlbFind (ctx va : Nat) (t : List Leaf) : Option Leaf :=
  t.find? (fun l => l.ctx == ctx && decide (l.base ≤ va) && decide (va < l.base + l.size))

/-- The translation a hod uses (R333, R334): the walk's, or while no INVAL has removed it an older one that a TLB holds. -/
def State.translate (s : State) (core ctx va : Nat) : Xlate :=
  let w := s.walk ctx va
  match (tlbFind ctx va (s.core core).tlb).or (tlbFind ctx va (s.die (dieOf core)).tlb) with
  | none => w
  | some l => if w = .page l then w else if Config.tlbKeeps s.tick va then .page l else w

/-- A first-level TLB with one more entry: 256, fully associative (R334); which one leaves is unspecified. -/
def tlbAdd (tick : Nat) (l : Leaf) (t : List Leaf) : List Leaf :=
  if t.contains l then t
  else if t.length < 256 then t ++ [l]
  else t.eraseIdx (Config.freeChoice tick 256 % t.length) ++ [l]

/-- The set of a second-level TLB that an entry goes to: one of 4,096, by a hash that the spec does not give. -/
def tlbSet (l : Leaf) : Nat := Config.freeChoice 0 (l.ctx * 2 ^ 48 + l.base / 2 ^ 16) % 4096

/-- A second-level TLB with one more entry: 32,768, in sets of 8 (R334). -/
def tlbAddSet (tick : Nat) (l : Leaf) (t : List Leaf) : List Leaf :=
  if t.contains l then t
  else if t.length < 8 then t ++ [l]
  else
    let mine := t.filter (fun x => tlbSet x == tlbSet l)
    if mine.length < 8 then t ++ [l] else t.erase (mine.getD (Config.freeChoice tick 32768 % mine.length) l) ++ [l]

/-- A translation used by a hod enters its TLBs. -/
def State.tlbInsert (s : State) (core : Nat) (l : Leaf) : State :=
  (s.modCore core (fun k => { k with tlb := tlbAdd s.tick l k.tlb })).modDie (dieOf core) (fun d => { d with tlb := tlbAddSet s.tick l d.tlb })

/-- INVAL (R335): removes every entry of a context that overlaps a range. -/
def State.tlbRemove (s : State) (p : Leaf → Bool) : State :=
  { s with cores := s.cores.map (fun e => (e.1, { e.2 with tlb := e.2.tlb.filter (fun l => !p l) })),
           dies := s.dies.map (fun e => (e.1, { e.2 with tlb := e.2.tlb.filter (fun l => !p l) })) }

/-- The leaves of a page table that overlap a virtual range, each with the part of the range that it maps. -/
def leavesFrom (rd : Nat → Nat) (ctx lo hi : Nat) : Nat → Nat → Nat → List Leaf
  | level, table, base =>
    (List.range (levelCount level)).flatMap (fun idx =>
      let size := 2 ^ levelShift level
      let at_ := base + idx * size
      if at_ + size ≤ lo ∨ hi ≤ at_ then []
      else
        let p := rd (table + 8 * idx)
        if !p.testBit 0 then []
        else if p.testBit 1 then
          let a := max lo at_
          let b := min hi (at_ + size)
          [{ ctx := ctx, base := a, size := b - a, key := bitsOf p 52 2 * 2 ^ 52 + bitsOf p 8 44 * 256 + (a - at_), r := p.testBit 2,
             w := p.testBit 3, comb := p.testBit 4 }]
        else match level with
          | 0 => []
          | n + 1 => leavesFrom rd ctx lo hi n (bitsOf p 8 44 * 256) at_)

/-- The leaves of a context's page table that overlap a virtual range. -/
def State.leaves (s : State) (ctx lo hi : Nat) : List Leaf :=
  leavesFrom (s.plainWord (s.ctx ctx).keyNo) ctx lo (min hi 0xFFFF00000000) 3 (s.ctx ctx).ptroot 0

/-- Whether a sector lies in the pages that a virtual range of a context maps (R333, R342). -/
def State.inRange (s : State) (ctx lo hi sector : Nat) : Bool :=
  (s.leaves ctx lo hi).any (fun l => decide (l.key / 64 ≤ sector) && decide (sector * 64 < l.key + l.size))

/-! ### The home slices (R219, R253, R356) -/

/-- A word of memory that a virtual address names at its home; none where it is not mapped. -/
def State.homeWord (s : State) (ctx va : Nat) : Option Nat :=
  match s.walk ctx va with
  | .page l => some (l.key + (va - l.base))
  | _ => none

/-- The words whose home slice takes the maximum of every write: TAIL of each attached ring and launch queue, and FREED of
each receive queue (R219, R298, R356). -/
def State.maxWords (s : State) : List Nat :=
  let rings := s.cores.flatMap (fun c => c.2.hod.queues.filterMap (fun q => if q.2.en then s.homeWord q.2.ctx (q.2.base + 24) else none))
  let launches := s.sched.queues.filterMap (fun q => if q.2.en then s.homeWord q.2.ctx (q.2.base + 24) else none)
  let freed := s.host.recvQs.filterMap (fun q => if q.2.en then s.homeWord q.2.ctx q.2.freed else none)
  rings ++ launches ++ freed

/-- A byte at its home slice as a key reads it; what a peer's export window holds is not this machine's. -/
def State.homeByte (s : State) (ck key : Nat) : Byte := if isPeerKey key then Config.freeByte s.tick key else s.plainByte ck key

/-- Words of 8 bytes of which every byte is among these keys. -/
def fullWords (keys : List Nat) : List Nat :=
  ((keys.map (· / 8)).eraseDups).filter (fun w => (List.range 8).all (fun i => keys.contains (8 * w + i)))

/-- The pinned code pages of the launches that have not ended, by physical address (R305). -/
def State.codePagesLive (s : State) : List Nat := s.sched.launches.flatMap (fun l => if l.2.ended then [] else l.2.pages.map (·.2))

/-- Words of live code that are about to be overwritten keep their earlier value (R305). -/
def State.keepCode (s : State) (ck : Nat) (keys : List Nat) : State :=
  let pages := s.codePagesLive
  if pages.isEmpty then s
  else
    let ws := ((keys.filter (fun k => pages.any (fun p => decide (p ≤ k) && decide (k < p + 2 ^ 16)))).map (· / 4)).eraseDups
    let old := ws.map (fun w => (w, (List.range 4).foldr (fun i v => (s.plainByte ck (4 * w + i)).toNat + 256 * v) 0))
    { s with codeOld := s.codeOld ++ old.filter (fun e => !s.codeOld.contains e) }

/-- Writes bytes at their home slice for a context, under a key; a peer's bytes leave as one remote write (R359). -/
def State.homeWrite (s : State) (ctx ck : Nat) (cells : List (Nat × Byte)) : State :=
  match cells with
  | [] => s
  | (k, _) :: _ =>
    if isPeerKey k then
      { s with host := { s.host with netOut := s.host.netOut ++ [.remoteWrite ctx (k / 2 ^ 48 % 16) (k % 2 ^ 48)
          (cells.map (fun e => (e.1 % 2 ^ 48, e.2)))] } }
    else
      let s := s.keepCode ck (cells.map (·.1))
      let s := ((cells.map (fun e => e.1 / 64)).eraseDups).foldl (fun s x => s.claimSector ck x) s
      let far := cells.foldl (fun m e => m.write e.1 e.2) s.far
      let touched := s.maxWords.filter (fun w => cells.any (fun e => decide (w ≤ e.1) && decide (e.1 < w + 8)))
      let far := touched.foldl (fun m w => m.writeLE w (max (s.far.readLE w 8) (m.readLE w 8)) 8) far
      let full := fullWords (cells.map (·.1))
      { s with far := far,
               hours := { s.hours with poison := s.hours.poison.filter (fun x => !full.any (fun w => x == .far w)) } }

/-- The cells of a little-endian value. -/
def cellsOf (key v : Nat) : Nat → List (Nat × Byte)
  | 0 => []
  | n + 1 => (key, BitVec.ofNat 8 v) :: cellsOf (key + 1) (v / 256) n

/-- The cells of a list of bytes. -/
def cellsFrom (key : Nat) (bs : List Byte) : List (Nat × Byte) := bs.zipIdx.map (fun e => (key + e.2, e.1))

/-! ### Sectors (R265, R266) -/

/-- A byte of a sector's data. -/
def Sector.byte (x : Sector) (i : Nat) : Byte := x.data.extractLsb' (8 * i) 8

/-- A sector with one byte replaced. -/
def Sector.setByte (x : Sector) (i : Nat) (b : Byte) (dirty : Bool) : Sector :=
  let m := 1#64 <<< i
  let keep := ~~~ (0xFF#512 <<< (8 * i))
  { x with data := (x.data &&& keep) ||| (b.setWidth 512 <<< (8 * i)), valid := x.valid ||| m,
           dirty := if dirty then x.dirty ||| m else x.dirty }

/-- An empty sector of a context. -/
def Sector.empty (ctx va : Nat) (st : SectorState) : Sector := { st := st, valid := 0, dirty := 0, data := 0, ctx := ctx, va := va }

/-- The key under which a sector's bytes came into the L2 (R403, R404). -/
def State.sectorKey (s : State) (x : Sector) : Nat := s.cryptOf x.ctx x.va

/-- The bytes of a sector that its home must give: those not valid. -/
def State.fetchInto (s : State) (sector : Nat) (x : Sector) : Sector :=
  let ck := s.sectorKey x
  (List.range 64).foldl (fun x i => if x.valid.getLsbD i then x else x.setByte i (s.homeByte ck (64 * sector + i)) false) x

/-- The words of which a die fetches bytes from home bring their poison with them (R389). -/
def State.fetchPoison (s : State) (die sector : Nat) (x : Sector) : State :=
  let ws := (List.range 8).filter (fun i => (List.range 8).any (fun b => !x.valid.getLsbD (8 * i + b)) &&
    s.hours.poison.contains (.far (8 * sector + i)) && !s.hours.poison.contains (.l2 die (8 * sector + i)))
  { s with hours := { s.hours with poison := s.hours.poison ++ ws.map (fun i => PoisonAt.l2 die (8 * sector + i)) } }

/-- The dirty bytes of a sector, by key. -/
def Sector.dirtyCells (x : Sector) (sector : Nat) : List (Nat × Byte) :=
  ((List.range 64).filter (fun i => x.dirty.getLsbD i)).map (fun i => (64 * sector + i, x.byte i))

/-- Whether an L2 line is counted or Spent on a die. -/
def Die.pins (d : Die) (sector : Nat) : Bool := (d.l2counts.find (sector / 4)).isSome

/-- The owning die of a counted or Spent line, with its count (R267). -/
def State.owner (s : State) (line : Nat) : Option (Nat × LineCount) :=
  (List.range Config.dies).findSome? (fun d => ((s.die d).l2counts.find line).map (fun k => (d, k)))

/-- Poison of a drained sector goes to memory with its dirty bytes (R389). -/
def State.drainPoison (s : State) (die sector : Nat) (x : Sector) : State :=
  let ws := (List.range 8).filter (fun i => (List.range 8).any (fun b => x.dirty.getLsbD (8 * i + b)) &&
    s.hours.poison.contains (.l2 die (8 * sector + i)))
  { s with hours := { s.hours with poison := s.hours.poison ++
      (ws.map (fun i => PoisonAt.far (8 * sector + i))).filter (fun p => !s.hours.poison.contains p) } }

/-- A sector leaves a die's L2, with the poison of its words. -/
def State.dropSector (s : State) (die sector : Nat) : State :=
  let s := s.modDie die (fun d => { d with l2 := d.l2.erase sector })
  { s with hours := { s.hours with poison := s.hours.poison.filter (fun p => !(List.range 8).any (fun i => p == .l2 die (8 * sector + i))) } }

/-- Writes a sector's dirty bytes to its home. -/
def State.writeBack (s : State) (die sector : Nat) (x : Sector) : State :=
  (s.homeWrite x.ctx (s.sectorKey x) (x.dirtyCells sector)).drainPoison die sector x

/-- A drain of one sector (R265): its dirty bytes go home and it becomes Clean; counted lines are exempt, and one whose home is out of service
waits (R398). -/
def State.drainSector (s : State) (die sector : Nat) : State :=
  match (s.die die).l2.find sector with
  | none => s
  | some x =>
    if x.st != .dirty || (s.die die).pins sector || !s.homeUp (64 * sector) then s
    else (s.writeBack die sector x).modDie die (fun d => { d with l2 := d.l2.insert sector { x with st := .clean, dirty := 0 } })

/-- An invalidation of one sector (R265, R266): its valid bytes that are not dirty are dropped. -/
def State.invalidateSector (s : State) (die sector : Nat) : State :=
  match (s.die die).l2.find sector with
  | none => s
  | some x =>
    if (s.die die).pins sector || s.homedOn die (64 * sector) then s
    else if x.st == .clean then s.dropSector die sector
    else s.modDie die (fun d => { d with l2 := d.l2.insert sector { x with valid := x.dirty } })

/-- Whether a sector may leave a die's L2: it is neither pending nor pinned, and dirty bytes can go home (R265, R267, R398). -/
def State.mayEvict (s : State) (die sector : Nat) (x : Sector) : Bool :=
  x.st != .pending && !(s.die die).pins sector && (x.st == .clean || s.homeUp (64 * sector))

/-- A sector leaves a die's L2, its dirty bytes first going home (R265). -/
def State.evictSector (s : State) (die sector : Nat) : State :=
  match (s.die die).l2.find sector with
  | none => s
  | some x => (if x.st == .dirty then s.writeBack die sector x else s).dropSector die sector

/-- Lines of a die's L2 that lie in the slice and set of a key (R271): those it holds a sector of, and those it counts. -/
def State.waysOf (s : State) (die key : Nat) : List Nat :=
  (((s.die die).l2.map (fun (e : Nat × Sector) => e.1 / 4) ++
    (s.die die).l2counts.map (fun (e : Nat × LineCount) => e.1)).eraseDups).filter (fun l =>
    sliceSet (256 * l) == sliceSet key && s.dieSlice die (256 * l) == s.dieSlice die key)

/-- Makes room for a line in a die's L2, whose sets have 16 ways (R271): which line leaves is unspecified; none where every line is held fast. -/
def State.makeRoom (s : State) (die key : Nat) : Option State :=
  let d := s.die die
  if d.l2.length + d.l2counts.length < 16 || d.l2.any (fun (e : Nat × Sector) => e.1 / 4 == key / 256) || (d.l2counts.find (key / 256)).isSome then some s
  else
    let ways := s.waysOf die key
    if ways.length < 16 then some s
    else
      let free := ways.filter (fun l => (d.l2counts.find l).isNone &&
        (d.l2.filter (fun (e : Nat × Sector) => e.1 / 4 == l)).all (fun (e : Nat × Sector) => s.mayEvict die e.1 e.2))
      match free with
      | [] => none
      | f :: _ =>
        let line := free.getD (Config.freeChoice s.tick key % free.length) f
        some ((List.range 4).foldl (fun s i => s.evictSector die (4 * line + i)) s)

/-- A predicate on a die's sectors. -/
abbrev SectorTest := Nat → Sector → Bool

/-- The sectors of a die that meet a test. -/
def State.sectorsOf (s : State) (die : Nat) (p : SectorTest) : List Nat :=
  ((s.die die).l2.filter (fun e => p e.1 e.2)).map (·.1)

/-- A die drains its Dirty sectors that meet a test. -/
def State.drainDie (s : State) (p : SectorTest) (die : Nat) : State :=
  (s.sectorsOf die (fun k x => x.st == .dirty && p k x)).foldl (fun s k => s.drainSector die k) s

/-- A die invalidates its sectors that meet a test. -/
def State.invalidateDie (s : State) (p : SectorTest) (die : Nat) : State :=
  (s.sectorsOf die p).foldl (fun s k => s.invalidateSector die k) s

/-- A list in the order that a number picks. -/
def pickOrder : Nat → Nat → List Nat → List Nat
  | 0, _, l => l
  | _, _, [] => []
  | f + 1, n, l => let x := l.getD (n % l.length) 0; x :: pickOrder f (n / l.length) (l.erase x)

/-- Dies drain their Dirty sectors that meet a test, in an order that is unspecified where more than one has any
(R256). -/
def State.drainThese (s : State) (dies : List Nat) (p : SectorTest) : State :=
  let ds := dies.filter (fun d => !(s.sectorsOf d (fun k x => x.st == .dirty && p k x)).isEmpty)
  let order := if ds.length ≤ 1 then ds else pickOrder ds.length (Config.drainOrder s.tick) ds
  order.foldl (fun s d => s.drainDie p d) s

/-- Every die drains its Dirty sectors that meet a test. -/
def State.drainAll (s : State) (p : SectorTest) : State := s.drainThese (List.range Config.dies) p

/-- Every die invalidates its sectors that meet a test. -/
def State.invalidateAll (s : State) (p : SectorTest) : State := (List.range Config.dies).foldl (fun s d => s.invalidateDie p d) s

/-- Whether every Dirty sector that meets a test can drain now: its home is in service (R398). -/
def State.drainable (s : State) (p : SectorTest) (dies : List Nat) : Bool :=
  dies.all (fun d => (s.die d).l2.all (fun e => e.2.st != .dirty || !p e.1 e.2 || (s.die d).pins e.1 || s.homeUp (64 * e.1)))

/-- Once slices or dies have left or joined the package, a die that now holds the home of a sector it has a copy of keeps none but a replica of a
peer's: Dirty bytes reach that home (R252, R415). -/
def State.settleHomes (s : State) : State :=
  (List.range Config.dies).foldl (fun s d =>
    (s.sectorsOf d (fun k x => s.homeDie (64 * k) == d && s.mayEvict d k x && !(isPeerKey (64 * k) && x.st == .clean))).foldl
      (fun s k => s.evictSector d k) s) s

/-- A sector of a context's SHARED regions, by the address of its last access. -/
def State.sharedOf (s : State) (ctx : Nat) : SectorTest := fun _ x => x.ctx == ctx && (s.ctx ctx).effective x.va == .shared

/-- The bytes that a die's hod wrote at a home slice leave no older clean copy in its own L2 (R255). -/
def State.dropClean (s : State) (die key n : Nat) : State :=
  let sec := key / 64
  match (s.die die).l2.find sec with
  | none => s
  | some x =>
    if x.st == .pending || (s.die die).pins sec then s
    else
      let gone := (List.range 64).foldl (fun (m : BitVec 64) i =>
        if key ≤ 64 * sec + i ∧ 64 * sec + i < key + n ∧ !x.dirty.getLsbD i then m ||| (1#64 <<< i) else m) 0
      s.modDie die (fun d => { d with l2 := d.l2.insert sec { x with valid := x.valid &&& ~~~ gone } })

/-! ### Far accesses of a hod (R253, R267, R340, R390) -/

/-- What an access of a hod finds: it is performed, it must wait, it stops the command with an engine fault (R245), or it
reads a poisoned word, of a unit, at a word of it, by a device virtual address. -/
inductive Got (α : Type) where
  | ok (s : State) (v : α)
  | wait (s : State)
  | stop (kind addr space : Nat)
  | poison (unit place addr : Nat)

/-- The next part of an access. -/
def Got.bind {α β : Type} (g : Got α) (f : State → α → Got β) : Got β :=
  match g with
  | .ok s v => f s v
  | .wait s => .wait s
  | .stop k a sp => .stop k a sp
  | .poison u w a => .poison u w a

/-- What a far access needs of its page (R333). -/
inductive FarNeed where
  | read | write | combine | fillRead
  deriving DecidableEq, Repr

/-- Whether a page allows it; a counted PREFETCH reads the page. -/
def Leaf.allows (l : Leaf) : FarNeed → Bool
  | .read | .fillRead => l.r
  | .write => l.w
  | .combine => l.w && l.comb

/-- The key of a virtual address that a hod accesses, after translation, page bits and the region state that its die has (R333, R336, R339,
R340). -/
def farPlace (s : State) (core ctx va : Nat) (need : FarNeed) : Got Nat :=
  match (if 2 ^ 48 ≤ va then Xlate.denied else s.translate core ctx va) with
  | .denied => .stop 2 va 0
  | .wait => .wait s
  | .poison at_ => .poison 7 (at_ / 8) va
  | .fault .. => .stop 1 va 0
  | .page l =>
    let key := l.key + (va - l.base)
    if !l.allows need || s.channelGone key then .stop 2 va 0
    else
      let s' := (s.tlbInsert core l).applyRegions (dieOf core) ctx va
      match (s'.ctx ctx).effectiveOn (dieOf core) va with
      | .shared => .ok s' key
      | .priv d => if d = dieOf core then .ok s' key else .stop 3 va 0
      | .frozen _ => if need = .read then .ok s' key else .stop 4 va 0
      | .thawing => if need = .read then .ok s' key else .wait s'

/-- The byte of a sector that a die holds, or its poisoned word. -/
def State.l2Byte (s : State) (die : Nat) (x : Sector) (key va : Nat) : Got Byte :=
  if s.hours.poison.contains (.l2 die (key / 8)) then .poison 5 (key / 8) va else .ok s (x.byte (key % 64))

/-- A byte read at its home slice by a context's address, or its poisoned word. -/
def State.farByte (s : State) (ctx va key : Nat) : Got Byte :=
  if s.hours.poison.contains (.far (key / 8)) then .poison (if key / 2 ^ 52 = 0 then 7 else 8) (key / 8) va
  else .ok s (s.homeByte (s.cryptOf ctx va) key)

/-- A sector's bytes as a context's address reads them: those that came in under another key are unspecified, and the same at every read (R403,
R404). -/
def State.rekeyed (s : State) (x : Sector) (ctx va sector : Nat) : Sector :=
  let ck := s.cryptOf ctx va
  if s.sectorKey x = ck then x
  else (List.range 64).foldl (fun (y : Sector) i => if y.valid.getLsbD i then y.setByte i (Config.scramble (s.sectorKey x) 0 ck (64 * sector + i)) false else y)
    { x with ctx := ctx, va := va }

/-- A byte of a counted line at its owning die: a Spent line is an over-read (R267). -/
def State.pinnedByte (s : State) (die : Nat) (k : LineCount) (ctx va key : Nat) : Got Byte :=
  if k.count = 0 then .stop 5 va 0
  else match (s.die die).l2.find (key / 64) with
    | some x => s.l2Byte die (s.rekeyed x ctx va (key / 64)) key va
    | none => s.farByte ctx va key

/-- The sector of an access leaves a remote read where it is a peer's (R359). -/
def State.askHome (s : State) (ctx key : Nat) : State :=
  if isPeerKey key then
    { s with host := { s.host with netOut := s.host.netOut ++ [.remoteRead ctx (key / 2 ^ 48 % 16) (key % 2 ^ 48)] } }
  else s

/-- A die as an access by a context's address finds its copy of a sector: one that came in under another key is none of this key's and leaves
(R404), and one of a peer's sector has left where the peer's collection has reached it, at a moment of the peer's own (R360, R343); none while the
copy is Pending or may not leave. -/
def State.freshCopy (s : State) (die ctx va key : Nat) : Option State :=
  match (s.die die).l2.find (key / 64) with
  | none => some s
  | some x =>
    if x.st == .pending then none
    else if s.sectorKey x != s.cryptOf ctx va || (isPeerKey key && (x.st == .clean && Config.freeChoice s.tick key % 2 == 1)) then
      if s.mayEvict die (key / 64) x then some (s.evictSector die (key / 64)) else none
    else some s

/-- A sector becomes Pending on a die while its home is asked for the bytes that are not valid (R265, R359). -/
def State.pendSector (s : State) (die ctx key : Nat) (x : Sector) : State :=
  (s.modDie die (fun d => { d with l2 := d.l2.insert (key / 64) { x with st := .pending } })).askHome ctx key

/-- A byte that a hod reads, by key (R253): the pinned copy of a counted line, or a Clean copy from before its fill (R267); else its die's copy, or
the home's value, kept as a Clean copy once the fill ends. A THAWING range is read at home (R340). -/
def readByteAt (s : State) (core ctx va key : Nat) : Got Byte :=
  let e := dieOf core
  let sec := key / 64
  match s.owner (key / 256) with
  | some (d, k) =>
    match (s.die e).l2.find sec with
    | some x =>
      if d != e && x.st == .clean && x.valid.getLsbD (key % 64) && s.sectorKey x == s.cryptOf ctx va then s.l2Byte e x key va
      else s.pinnedByte d k ctx va key
    | none => s.pinnedByte d k ctx va key
  | none =>
    if (s.ctx ctx).effectiveOn e va == .thawing then
      if s.homeUp key then (s.askHome ctx key).farByte ctx va key else .wait s
    else match s.freshCopy e ctx va key with
      | none => .wait s
      | some s =>
        match (s.die e).l2.find sec with
        | some x =>
          if x.valid.getLsbD (key % 64) then s.l2Byte e x key va
          else if !s.homeUp key then .wait s
          else if isPeerKey key then .wait (s.pendSector e ctx key { x with va := va })
          else
            let x' := s.fetchInto sec { x with va := va }
            ((s.fetchPoison e sec x).modDie e (fun d => { d with l2 := d.l2.insert sec x' })).l2Byte e x' key va
        | none =>
          if s.homedOn e key then (if s.homeUp key then s.farByte ctx va key else .wait s)
          else match s.makeRoom e key with
            | none => .wait s
            | some s => .wait (s.pendSector e ctx key (Sector.empty ctx va .pending))

/-- Reads n bytes of device memory for a hod, as a little-endian number. -/
def farRead (s : State) (core ctx va : Nat) : Nat → Got Nat
  | 0 => .ok s 0
  | n + 1 =>
    (farPlace s core ctx va .read).bind (fun s key =>
      (readByteAt s core ctx va key).bind (fun s b =>
        (farRead s core ctx (va + 1) n).bind (fun s v => .ok s (b.toNat + 256 * v))))

/-- Words of an L2 sector that a write of n bytes covers lose their poison (R389). -/
def State.clearL2Poison (s : State) (die key n : Nat) : State :=
  let full := fullWords ((List.range n).map (key + ·))
  { s with hours := { s.hours with poison := s.hours.poison.filter (fun p => !full.any (fun w => p == .l2 die w)) } }

/-- Writes bytes of one sector into a counted line's pinned copy, under the writer's key (R267, R403). -/
def State.pinnedWrite (s : State) (die ctx va : Nat) (cells : List (Nat × Byte)) : State :=
  (cells.foldl (fun s e => s.modDie die (fun d =>
    let x := s.rekeyed ((d.l2.find (e.1 / 64)).getD (Sector.empty ctx va .dirty)) ctx va (e.1 / 64)
    { d with l2 := d.l2.insert (e.1 / 64) (x.setByte (e.1 % 64) e.2 true) })) s).clearL2Poison die ((cells.map (·.1)).headD 0) cells.length

/-- One byte that a hod writes, by key: into the pinned copy of a counted line, which leaves the writer's own die no older byte; at its home at once
where its die holds that; else into its die's L2 (R252, R255, R265, R267). -/
def writeByteAt (s : State) (core ctx va key : Nat) (b : Byte) : Got Unit :=
  let e := dieOf core
  let sec := key / 64
  match s.owner (key / 256) with
  | some (d, k) => if k.count = 0 then .stop 5 va 0 else .ok ((s.pinnedWrite d ctx va [(key, b)]).dropClean e key 1) ()
  | none =>
    match s.freshCopy e ctx va key with
    | none => .wait s
    | some s =>
      if s.homeDie key == e then
        if s.homeUp key then .ok ((s.evictSector e sec).homeWrite ctx (s.cryptOf ctx va) [(key, b)]) () else .wait s
      else match (s.die e).l2.find sec with
        | some x =>
          let x := { x.setByte (key % 64) b true with st := .dirty, ctx := ctx, va := va }
          .ok (s.modDie e (fun d => { d with l2 := d.l2.insert sec x })) ()
        | none =>
          match s.makeRoom e key with
          | none => .wait s
          | some s => .ok (s.modDie e (fun d => { d with l2 := d.l2.insert sec ((Sector.empty ctx va .dirty).setByte (key % 64) b true) })) ()

/-- Writes the bytes of one element by keys. -/
def writeBytesAt (s : State) (core ctx va key v : Nat) : Nat → Got Unit
  | 0 => .ok s ()
  | n + 1 => (writeByteAt s core ctx va key (BitVec.ofNat 8 v)).bind (fun s _ => writeBytesAt s core ctx (va + 1) (key + 1) (v / 256) n)

/-- Writes an element of n bytes of device memory for a hod; where its die holds the home, all of its bytes reach it together. A word that it covers
is no longer poisoned where the bytes went (R389). -/
def farWrite (s : State) (core ctx va v n : Nat) : Got Unit :=
  (farPlace s core ctx va .write).bind (fun s key =>
    match s.owner (key / 256) with
    | some (d, k) =>
      if k.count = 0 then .stop 5 va 0 else .ok ((s.pinnedWrite d ctx va (cellsOf key v n)).dropClean (dieOf core) key n) ()
    | none =>
      if s.homeDie key == dieOf core then
        match s.freshCopy (dieOf core) ctx va key with
        | none => .wait s
        | some s =>
          if s.homeUp key then .ok ((s.evictSector (dieOf core) (key / 64)).homeWrite ctx (s.cryptOf ctx va) (cellsOf key v n)) () else .wait s
      else (writeBytesAt s core ctx va key v n).bind (fun s _ => .ok (s.clearL2Poison (dieOf core) key n) ()))

/-- A little-endian number at a home slice, by a context's address: a counted line's pinned copy where there is one (R267); none for a Spent
line. -/
def State.homeRead (s : State) (ctx va key : Nat) : Nat → Got Nat
  | 0 => .ok s 0
  | n + 1 =>
    (match s.owner (key / 256) with
     | some (d, k) => s.pinnedByte d k ctx va key
     | none => s.farByte ctx va key).bind (fun s b =>
       (State.homeRead s ctx (va + 1) (key + 1) n).bind (fun s v => .ok s (b.toNat + 256 * v)))

/-- Writes a number at a home slice, or into the pinned copy of a counted line. -/
def State.homePut (s : State) (ctx va key v n : Nat) : State :=
  match s.owner (key / 256) with
  | some (d, _) => s.pinnedWrite d ctx va (cellsOf key v n)
  | none => s.homeWrite ctx (s.cryptOf ctx va) (cellsOf key v n)

/-- What an indivisible operation asks of its element: REDOP, type, operand and comparand (R231, R238). -/
structure Combining where
  op : Nat
  type : Nat
  operand : Nat
  comparand : Nat
  deriving DecidableEq, Repr

/-- An indivisible operation at an element's home slice (R231, R238): the old value, and `f` of it written. A peer's element
leaves as a remote atomic (R359), whose old value is not this machine's. -/
def farCombine (s : State) (core ctx va n : Nat) (k : Combining) (f : Nat → Nat) : Got Nat :=
  (farPlace s core ctx va .combine).bind (fun s key =>
    if !s.homeUp key then .wait s else (s.homeRead ctx va key n).bind (fun s old =>
      if isPeerKey key then
        .ok { s with host := { s.host with netOut := s.host.netOut ++
          [.remoteAtomic ctx (key / 2 ^ 48 % 16) (key % 2 ^ 48) k.op k.type k.operand k.comparand] } } old
      else .ok ((s.homePut ctx va key (f old) n).dropClean (dieOf core) key n) old))

/-! ### Counted lines (R265, R267, R271) -/

/-- The sectors of a line as a counted fill leaves them: valid throughout, missing bytes from home (R265), of a peer's by remote reads (R359). -/
def State.loadLine (s : State) (die ctx va line : Nat) (fresh : Bool) : State :=
  (List.range 4).foldl (fun s i =>
    let sec := 4 * line + i
    let held := if fresh then none else ((s.die die).l2.find sec).filter (fun x => x.st != .pending)
    let old := { (held.getD (Sector.empty ctx va .dirty)) with st := .dirty, ctx := ctx, va := va }
    let x := s.fetchInto sec old
    let s := if old.valid = BitVec.allOnes 64 then s else s.askHome ctx (64 * sec)
    (s.fetchPoison die sec old).modDie die (fun d => { d with l2 := d.l2.insert sec x })) s

/-- Counted or Spent lines of a launch in a line's set on a die (R271). -/
def State.countedInSet (s : State) (die key launch : Nat) : Nat :=
  ((s.die die).l2counts.filter (fun e => e.2.launch == launch && sliceSet (256 * e.1) == sliceSet key &&
    s.dieSlice die (256 * e.1) == s.dieSlice die key)).length

/-- A die as a counted fill of a line finds it: the four sectors fresh, with room for the line in its set (R265, R271). -/
def State.readyLine (s : State) (die ctx va line : Nat) : Option State :=
  ((List.range 4).foldl (fun (o : Option State) i => o.bind (fun s => s.freshCopy die ctx va (256 * line + 64 * i))) (some s)).bind
    (fun s => s.makeRoom die (256 * line))

/-- A counted fill of one line by a hod of a die (R265, R267, R271), with whether COUNT_SPILL is set: the line is counted
at its owner, or where the launch's quota holds no more is left as it is, to be written without a count. -/
def State.countLine (s : State) (die ctx va key quota : Nat) (k : LineCount) : Got Bool :=
  let line := key / 256
  match s.owner line with
  | some (d, o) =>
    if o.launch ≠ k.launch ∧ quota ≤ s.countedInSet d key k.launch then .ok s true
    else if o.count = 0 && !s.homeUp key then .wait s
    else
      let n := o.count + k.count
      let s := if o.count = 0 then s.loadLine d ctx va line true else s
      .ok (s.modDie d (fun x => { x with l2counts := x.l2counts.insert line { k with count := min n 255 } })) (decide (255 < n))
  | none =>
    if quota ≤ s.countedInSet die key k.launch then .ok s true
    else if !s.homeUp key then .wait s
    else match s.readyLine die ctx va line with
      | none => .wait s
      | some s => .ok ((s.loadLine die ctx va line false).modDie die (fun x => { x with l2counts := x.l2counts.insert line k })) false

/-- A consuming read takes one count of a line (R265): at zero the line is Spent and its bytes are dropped. -/
def State.consumeFar (s : State) (line : Nat) : State :=
  match s.owner line with
  | none => s
  | some (d, k) =>
    if k.count = 0 then s
    else
      let s := s.modDie d (fun x => { x with l2counts := x.l2counts.insert line { k with count := k.count - 1 } })
      if k.count = 1 then (List.range 4).foldl (fun s i => s.dropSector d (4 * line + i)) s else s

/-! ### Resolution (R208, R269) -/

/-- Sets a field of a launch's status. -/
def State.modSummary (s : State) (grid : Nat) (f : Summary → Summary) : State :=
  match s.sched.launches.find grid with
  | some l => { s with sched := { s.sched with launches := s.sched.launches.insert grid { l with summary := f l.summary } } }
  | none => s

/-- Adds under-read lines to a launch's status, saturating (R215). -/
def State.addUnderread (s : State) (grid n : Nat) : State :=
  s.modSummary grid (fun m => { m with underread := min (m.underread + n) (2 ^ 32 - 1) })

/-- An L2 line of a die is resolved: a Spent one is Invalid, a counted one is unpinned and Dirty, which at its home is the
home's value at once. -/
def State.resolveLine (s : State) (die line : Nat) (k : LineCount) : State :=
  let s := s.modDie die (fun d => { d with l2counts := d.l2counts.erase line })
  (List.range 4).foldl (fun s i =>
    let sec := 4 * line + i
    match (s.die die).l2.find sec with
    | none => s
    | some x =>
      if k.count = 0 then s.dropSector die sec
      else if s.homeDie (64 * sec) == die && s.homeUp (64 * sec) then (s.writeBack die sec x).dropSector die sec
      else s.modDie die (fun d => { d with l2 := d.l2.insert sec { x with st := if x.dirty = 0 then .clean else .dirty } })) s

/-- Resolves the tile-store and L2 lines that meet a test, by line (R269); with `report` lines still counted are
under-read (R215), and a discard reports nothing (R346). -/
def State.resolveWhere (s : State) (report : Bool) (pt pl : Nat → Nat → LineCount → Bool) : State :=
  (List.range Config.dies).foldl (fun s d =>
    let ts := (s.die d).counts.filter (fun e => pt d e.1 e.2)
    let ls := (s.die d).l2counts.filter (fun e => pl d e.1 e.2)
    let s := s.modDie d (fun x => { x with counts := x.counts.filter (fun e => !pt d e.1 e.2) })
    let s := ls.foldl (fun s e => s.resolveLine d e.1 e.2) s
    if report then ((ts ++ ls).filter (fun e => e.2.count != 0)).foldl (fun s e => s.addUnderread e.2.launch 1) s else s) s

/-- Resolves the lines that meet a test on what they recorded. -/
def State.resolveLines (s : State) (p : LineCount → Bool) : State := s.resolveWhere true (fun _ _ k => p k) (fun _ _ k => p k)

/-! ### Fences (R259, R260, R262) -/

/-- The release record of a word for a context. -/
def State.recordOf (s : State) (word ctx : Nat) : Option ReleaseRec := s.releases.find? (fun r => r.word == word && r.ctx == ctx)

/-- Adds a die to a word's release record; none where the home slice's table is full (R262). -/
def State.recordRelease (s : State) (ctx die key : Nat) : Option State :=
  let word := key / 8
  let bit : BitVec 4 := 1#4 <<< die
  match s.recordOf word ctx with
  | some r => some { s with releases := s.releases.map (fun x => if x = r then { x with dies := x.dies ||| bit } else x) }
  | none =>
    let home := s.homeSlice key
    if 1024 ≤ (s.releases.filter (fun r => r.home == home)).length then none
    else some { s with releases := s.releases ++ [{ home := home, word := word, ctx := ctx, dies := bit }] }

/-- Whether a release at a word's key can act now: its home, and those of the sectors that it drains, are in service (R259, R398). -/
def State.releaseReady (s : State) (ctx die key scope : Nat) : Bool :=
  scope < 4 || (s.homeUp key && ((scope == 4 && (s.recordRelease ctx die key).isSome) || s.drainable (s.sharedOf ctx) [die]))

/-- A release by a hod of a die at a word's key (R259). -/
def State.release (s : State) (ctx die key scope : Nat) : State :=
  if scope < 4 then s
  else
    let drained := fun (s : State) => s.drainDie (s.sharedOf ctx) die
    if scope = 4 then (s.recordRelease ctx die key).getD (drained s)
    else let s := drained s; (s.recordRelease ctx die key).getD s

/-- The other dies in a word's release record (R260). -/
def State.releasers (s : State) (ctx die key : Nat) : List Nat :=
  match s.recordOf (key / 8) ctx with
  | some r => (List.range Config.dies).filter (fun d => r.dies.getLsbD d && d != die)
  | none => []

/-- Whether an acquire at a word's key can act now (R260, R398). -/
def State.acquireReady (s : State) (ctx die key scope : Nat) : Bool :=
  scope < 4 || (s.homeUp key && s.drainable (s.sharedOf ctx) (s.releasers ctx die key))

/-- An acquire by a hod of a die at a word's key (R260). -/
def State.acquire (s : State) (ctx die key scope : Nat) : State :=
  if scope < 4 then s
  else
    let s := s.drainThese (s.releasers ctx die key) (s.sharedOf ctx)
    s.invalidateDie (s.sharedOf ctx) die

/-- A fence at a synchronisation word in a near space (R239). -/
def State.nearFence (s : State) (ctx die scope : Nat) (acquire : Bool) : State :=
  if scope < 4 then s
  else if acquire then s.invalidateDie (s.sharedOf ctx) die
  else s.drainDie (s.sharedOf ctx) die

/-- Whether the course steps can end now: what they drain can drain (R254, R398). -/
def State.courseReady (s : State) (ctx : Nat) (resolves : LineCount → Bool) : Bool :=
  (s.resolveLines resolves).drainable (s.sharedOf ctx) (List.range Config.dies)

/-- The course steps for a grid of a context (R254). -/
def State.courseSteps (s : State) (ctx : Nat) (resolves : LineCount → Bool) : State :=
  let s := s.resolveLines resolves
  let s := s.drainAll (s.sharedOf ctx)
  let s := s.invalidateAll (s.sharedOf ctx)
  { s with releases := s.releases.filter (fun r => r.ctx != ctx) }

end Sys2Proof.Machine
end

