-- ==== Sys2Proof/Machine/Barriers.lean ====
section
/-!
DEFINITION. Barriers: the shared team state of chapter 06 as operations: barrier events (R171 to R176), rings (R181 to R183), convergence phases (R185), waking (R11), and the end of threads, groups and
teams (R119, R187).
-/

namespace Sys2Proof.Machine

/-! ### One barrier (R170 to R177) -/

/-- A barrier with its initial settings (R27, R170). -/
def Barrier.fresh (expa expb : Nat) : Barrier :=
  { expa := expa, expb := expb, xb := 0, arr := 0, byt := 0, pa := 0, c := 0, errh := 0, errs := false, ovr := false,
    closed := false, cluArr := false, cluHeld := [] }

/-- The next phase begins: held arrivals move in (R171); the error of the completed phase enters ERRH. -/
def Barrier.nextPhase (b : Barrier) (err : Bool) : Barrier :=
  let n := min b.pa b.expa
  { b with xb := 0, arr := n, pa := b.pa - n, c := (b.c + 1) % 2 ^ 32, errh := (2 * b.errh + err.toNat) % 2 ^ 32,
           errs := b.errs || err, cluArr := b.cluHeld.any (fun q => decide (q < n)),
           cluHeld := (b.cluHeld.filter (fun q => decide (n ≤ q))).map (· - n) }

/-- The check after each event (R171), with how many phases completed at cluster scope; `fuel` bounds the phases. -/
def Barrier.settle : Nat → Barrier → Barrier × Nat
  | 0, b => (b, 0)
  | fuel + 1, b =>
    let need := b.expb + b.xb
    if b.arr = b.expa ∧ need ≤ b.byt then
      let clu := b.cluArr.toNat
      let r := Barrier.settle fuel ({ b with ovr := b.ovr || decide (need < b.byt), byt := b.byt - need }.nextPhase false)
      (r.1, clu + r.2)
    else (b, 0)

/-- An event followed by its check (R171): each phase after the first takes an arrival held or a byte counted. -/
def Barrier.after (b : Barrier) : Barrier × Nat := b.settle (b.pa + b.byt + 1)

/-- The phase an arrival made now counts toward (R175). -/
def Barrier.arrivalPhase (b : Barrier) : Nat :=
  if b.arr < b.expa then b.c else (b.c + 1 + b.pa / max b.expa 1) % 2 ^ 32

/-- An arrival (R171), through CBAR when `clu` is set. -/
def Barrier.arrive (b : Barrier) (clu : Bool) : Barrier :=
  if b.arr < b.expa then { b with arr := b.arr + 1, cluArr := b.cluArr || clu }
  else { b with pa := min (b.pa + 1) 0xFFFF, ovr := true,
                cluHeld := if clu && decide (b.pa < 0xFFFF) then b.cluHeld ++ [b.pa] else b.cluHeld }

/-- Bytes that have landed (R171): BYT saturates and then sets OVR. -/
def Barrier.bytes (b : Barrier) (n : Nat) : Barrier :=
  if b.byt + n < 2 ^ 33 then { b with byt := b.byt + n } else { b with byt := 2 ^ 33 - 1, ovr := true }

/-- An expectation (R171). -/
def Barrier.expect (b : Barrier) (x : Nat) : Barrier := { b with xb := (b.xb + x) % 2 ^ 32 }

/-- An error completion (R172), with how many phases completed at cluster scope. -/
def Barrier.errorComplete (b : Barrier) : Barrier × Nat :=
  let r := ({ b with byt := 0 }.nextPhase true).after
  (r.1, b.cluArr.toNat + r.2)

/-- BINIT (R174). -/
def Barrier.init (b : Barrier) (expa expb : Nat) : Barrier :=
  { b with expa := expa, expb := expb, arr := 0, byt := 0, xb := 0, pa := 0, cluArr := false, cluHeld := [],
           ovr := b.ovr || b.arr != 0 || b.byt != 0 || b.pa != 0 }

/-- SRINIT's settings of one barrier (R181): all but OVR cleared. -/
def Barrier.ringInit (b : Barrier) (expa expb : Nat) : Barrier := { Barrier.fresh expa expb with ovr := b.ovr }

/-- What a wait for phase x finds (R176): the predicate's value, or none while it must block. -/
def Barrier.waitValue (b : Barrier) (x : Nat) : Option Byte :=
  let d := (b.c + 2 ^ 32 - x % 2 ^ 32) % 2 ^ 32
  if 1 ≤ d ∧ d ≤ 2 ^ 31 then
    let err := if d ≤ 32 then b.errh.testBit (d - 1) else b.errs
    some (if err then 0x00 else 0xFF)
  else if b.closed then some 0x00 else none

/-- BQRY's snapshot (R177). -/
def Barrier.snapshot (b : Barrier) (sel : Nat) : Word :=
  match sel with
  | 0 => BitVec.ofNat 64 (b.c + b.arr * 2 ^ 32 + b.ovr.toNat * 2 ^ 48 + b.errh % 2 * 2 ^ 49 + b.closed.toNat * 2 ^ 50 +
      b.errs.toNat * 2 ^ 51)
  | 1 => BitVec.ofNat 64 (b.byt + b.xb % 2 ^ 31 * 2 ^ 33)
  | _ => BitVec.ofNat 64 (b.expa + b.expb * 2 ^ 16)

/-! ### Barrier events in the package -/

/-- A barrier of a bound team. -/
def State.bar (s : State) (c r n : Nat) : Option Barrier := (s.team c r).bind (fun t => t.bars[n]?)

/-- Applies a barrier's new value and the effects of its cluster-scope completions: %phase [63:32] and the lines of
recorded scope 2 (R178, R269). A completed phase restarts the task's watchdog (R322). -/
def State.putBar (s : State) (c r n : Nat) (v : Barrier × Nat) : State :=
  match s.team c r with
  | none => s
  | some t =>
    let s := s.setTeam c r { t with bars := t.bars.set n v.1, cluPhases := t.cluPhases + v.2 }
    let s := if v.1.c = (t.bars[n]?.map (·.c)).getD 0 then s else s.watchRestart t.ids.task
    if v.2 = 0 then s
    else s.resolveLines (fun l => l.scope == 2 && l.task == t.ids.task && l.cluster == t.ids.cluster)

/-- Applies an event to a barrier and then the check of R171; an event for a team that is gone is discarded (R194). -/
def State.barEvent (s : State) (c r n : Nat) (f : Barrier → Barrier) : State :=
  match s.bar c r n with
  | none => s
  | some b => s.putBar c r n (f b).after

/-- Records an arrival and gives the phase it counts toward. -/
def State.barArrive (s : State) (c r n : Nat) (clu : Bool) : State × Nat :=
  match s.bar c r n with
  | none => (s, 0)
  | some b => (s.barEvent c r n (·.arrive clu), b.arrivalPhase)

/-- Records one arrival for each lane in ascending order, or one in all, and gives each lane's phase (R169, R175);
`pre` is the event that comes before a lane's arrival. -/
def State.barArrivals (s : State) (c r n : Nat) (clu one : Bool) (lanes : List Nat) (pre : Nat → Barrier → Barrier) :
    State × List (Nat × Nat) :=
  let step := fun (acc : State × List (Nat × Nat)) (l : Nat) =>
    let v := (acc.1.barEvent c r n (pre l)).barArrive c r n clu
    (v.1, acc.2 ++ [(l, v.2)])
  if one then
    let v := (lanes.take 1).foldl step (s, [])
    (v.1, lanes.map (fun l => (l, ((v.2.head?).map (·.2)).getD 0)))
  else lanes.foldl step (s, [])

/-- Completes a barrier's current phase with an error (R172). -/
def State.barError (s : State) (c r n : Nat) : State :=
  match s.bar c r n with
  | none => s
  | some b => s.putBar c r n b.errorComplete

/-- Team 0 of a team's cluster, by core and record (R176). -/
def Team.leader (t : Team) (c r : Nat) : Nat × Nat := t.ids.peers.headD (c, r)

/-! ### Waking (R11) -/

/-- on_wake of R11. -/
def Thread.wake (th : Thread) (turns : Nat) : Thread :=
  if th.owed then { th with status := .run, met := none } else { th with status := .run, met := none, owed := true, stamp := turns }

/-- Remembers, for the blocked threads of a group, that the case they wait for has held (R176, R180): what they wait for may change before they
wake. `f` gives what a wait's predicate receives, if the case holds now. -/
def Group.latch (g : Group) (f : Wait → Option Byte) : Group :=
  { g with threads := g.threads.map (fun th =>
      match th.status with
      | .wait w => if th.met.isNone then { th with met := f w } else th
      | _ => th) }

/-- Remembers for the blocked threads of a team which waits have ended. -/
def Team.latch (t : Team) (f : Group → Wait → Option Byte) : Team := { t with groups := t.groups.map (fun g => g.latch (f g)) }

/-! ### Outstanding counters (R27, R133) -/

/-- What a wait for a counter finds (R180). -/
def Group.counterMet (g : Group) (k n : Nat) : Option Byte := if g.counters.getD k 0 ≤ n then some 0 else none

/-- One more command or operation of a class (R27); the threads whose counter was low enough have waited long enough (R180). -/
def Group.countUp (g : Group) (cls : Nat) : Group :=
  let g := g.latch (fun w => match w with
    | .counter k n => g.counterMet k n
    | _ => none)
  { g with counters := g.counters.modify cls (· + 1) }

/-- Takes one from a group's counter of a class (R27). -/
def Group.countDown (g : Group) (cls : Nat) : Group := { g with counters := g.counters.modify cls (· - 1) }

/-- One more of the operations and commands that counter 3 counts, in their common posting order (R27, R133). -/
def Group.post (g : Group) (id : Nat) : Group := { g.countUp 3 with posted := g.posted ++ [(id, false)] }

/-- One of those has ended; the counter falls in posting order (R27, R133). -/
def Group.unpost (g : Group) (id : Nat) : Group :=
  let ps := g.posted.map (fun e => if e.1 = id then (e.1, true) else e)
  let fallen := (ps.takeWhile (·.2)).length
  { g with posted := ps.dropWhile (·.2), counters := g.counters.modify 3 (· - fallen) }

/-- The posting of a matrix operation that issues at a tick. -/
def matrixPost (tick : Nat) : Nat := 2 * tick

/-- The posting of a command of class 3. -/
def commandPost (seq : Nat) : Nat := 2 * seq + 1

/-! ### Rings (R181 to R183) -/

/-- The barriers of a ring. -/
def Ring.bars (q : Ring) : List Nat := (List.range (2 * q.n)).map (q.bF + ·)

/-- Stage and lap of a cursor (R182). -/
def Ring.stage (q : Ring) (k : Word) : Nat := k.toNat % q.n
/-- Lap of a cursor (R182). -/
def Ring.lap (q : Ring) (k : Word) : Nat := k.toNat / q.n % 2 ^ 32

/-- A group has ended once all of its threads have exited (R119). -/
def Group.ended (g : Group) : Bool := g.threads.all (fun th => th.status == .exited)

/-- Open rings whose producer groups have all ended enter CLOSING (R183). -/
def Team.closeRings (t : Team) : Team :=
  { t with rings := t.rings.map (fun e =>
      let q := e.2
      if q.st == .opened && q.role != 0 && t.groups.all (fun g => g.role != q.role || g.ended) then
        (e.1, { q with st := .closing, awaits := none })
      else e) }

/-- Whether a command keeps a closing ring open (R183): a producer group's command, or one of those listed at the
SRCLOSE, that names one of the ring's barriers and has neither completed nor been abandoned. -/
def Team.keepsRing (t : Team) (r : Nat) (q : Ring) (f : Flight) : Bool :=
  !f.done && f.queue == 0 && f.tr == r && q.bars.contains f.bar &&
    (match q.awaits with
     | some seqs => seqs.contains f.seq
     | none => ((t.groups[f.grp]?).map (fun g => g.role == q.role)).getD false)

/-! ### Convergence phases (R185) -/

/-- The threads of a convergence register's members that have not exited. -/
def Team.cvThreads (t : Team) (v : Cv) : List Thread :=
  v.members.flatMap (fun m => ((t.groups[m]?).map (fun g => g.threads.filter (fun th => th.status != .exited))).getD [])

/-- How many phases of a register a thread has signed. -/
def Thread.signedTo (th : Thread) (cv : Nat) : Nat := (th.signed.find cv).getD 0

/-- Whether every thread that counts has signed the current phase. -/
def Team.cvSigned (t : Team) (cv : Nat) (v : Cv) : Bool := (t.cvThreads v).all (fun th => decide (v.q < th.signedTo cv))

/-- How many phases of a register have completed (R185): a phase can be complete and not yet advanced, while threads stand arrived at a matrix
operation. -/
def Team.cvDone (t : Team) (cv : Nat) (v : Cv) : Nat := if !(t.cvThreads v).isEmpty && t.cvSigned cv v then v.q + 1 else v.q

/-- A phase that is complete and holds no arrival advances at once (R185). -/
def Team.cvStep (t : Team) (cv : Nat) : Team :=
  match t.cvs.find cv with
  | none => t
  | some v =>
    let ths := t.cvThreads v
    if !ths.isEmpty && t.cvSigned cv v && !ths.any (·.arrivedAt cv) then { t with cvs := t.cvs.insert cv { v with q := v.q + 1 } }
    else t

/-- Signs phase q for a thread (R185), which may have signed a later one. -/
def Thread.sign (th : Thread) (cv q : Nat) : Thread := { th with signed := th.signed.insert cv (max (q + 1) (th.signedTo cv)) }

/-- The threads that wait in SIGN for a phase that has completed sign the next one (R185). -/
def Team.signWaiters (t : Team) (cv : Nat) : Team :=
  match t.cvs.find cv with
  | none => t
  | some v =>
    let done := t.cvDone cv v
    let go := fun (th : Thread) =>
      if th.status == .wait (.sign cv) && th.met.isNone && decide (th.signedTo cv ≤ done) then { th.sign cv (th.signedTo cv) with met := some 0 } else th
    { t with groups := t.groups.zipIdx.map (fun e => if v.members.contains e.2 then { e.1 with threads := e.1.threads.map go } else e.1) }

/-- What follows a signature, an arrival or an exit at a convergence register (R185): the phase advances, the threads that wait in SIGN sign the
next, and that may complete too. -/
def Team.cvAdvance (t : Team) (cv : Nat) : Team := ((t.cvStep cv).signWaiters cv).cvStep cv

/-- Checks every convergence register of a team. -/
def Team.cvAdvanceAll (t : Team) : Team := t.cvs.keys.foldl Team.cvAdvance t

/-- Whether the token admits an operation on a convergence register (R145). -/
def Team.tokenAdmits (t : Team) (cv : Nat) : Bool :=
  match t.token with
  | none => true
  | some h => h == cv

/-- Whether an operation's arrival conditions hold (R129): its phase is complete and every thread has arrived. -/
def Team.cvReady (t : Team) (cv : Nat) (v : Cv) : Bool :=
  let ths := t.cvThreads v
  !ths.isEmpty && t.cvSigned cv v && ths.all (·.arrivedAt cv)

/-- Records the operations that have become ready, with the cycle and the slot (R129, R151). -/
def Team.noteReady (t : Team) (at_ : Nat × Nat) : Team :=
  { t with cvs := t.cvs.map (fun e =>
      if e.2.ready.isNone && t.cvReady e.1 e.2 && t.tokenAdmits e.1 then (e.1, { e.2 with ready := some at_ }) else e) }

/-- Whether the operation that stands arrived at a register is an MTOK, which never enters the engine queue (R146, R153). -/
def Team.isToken (t : Team) (cv : Nat) : Bool :=
  t.groups.any (fun g => g.threads.any (fun th => match th.status with
    | .wait (.matrix a) => a.cv == cv && (match a.instr with
      | .mtok .. => true
      | _ => false)
    | _ => false))

/-- The operations of a core that are ready and have not entered the engine queue, by team record and register (R151). -/
def State.readyOps (s : State) (c : Nat) : List (Nat × Nat × (Nat × Nat)) :=
  (s.core c).teams.flatMap (fun e => if e.2.state = .running then
    e.2.cvs.filterMap (fun v => if e.2.isToken v.1 then none else v.2.ready.map (fun r => (e.1, v.1, r))) else [])

/-- Entries of the engine queue (R151). -/
def engineSlots : Nat := 16

/-- The operations that are in the engine queue or about to enter it. -/
def State.engineLoad (s : State) (c : Nat) : Nat := (s.core c).engine.length + (s.readyOps c).length

/-- Whether what an instruction does would make an operation ready while the queue is full: it interlocks (R151). -/
def State.engineOver (s s' : State) (c : Nat) : Bool := decide (engineSlots < s'.engineLoad c) && decide (s.engineLoad c < s'.engineLoad c)

/-! ### End of threads, groups and teams (R119, R145, R187) -/

/-- A thread that exits drops its pending writes (R119). -/
def Thread.exit (th : Thread) : Thread := { th with status := .exited, pend := [], acqs := [], fences := [], xfer := none }

/-- Lock words, among those that `p` picks with the lane at their head, whose head has not had its grant's arrival: the barriers on which it
comes (R186). -/
def Die.owedGrants (d : Die) (p : Nat → LaneId → Bool) : List (LaneId × Nat) :=
  d.locks.filterMap (fun e => (e.2.head?).bind (fun q => if p e.1 q.who && !q.granted then some (q.who, q.bar) else none))

/-- The arrivals of lock requests that have reached their heads and are being removed (R186): to a team that has ended they are discarded
(R187). -/
def State.payGrants (s : State) (gs : List (LaneId × Nat)) : State :=
  gs.foldl (fun s g =>
    if ((s.team g.1.core g.1.tr).map (fun t => t.state == .running)).getD false then (s.barArrive g.1.core g.1.tr g.2 false).1 else s) s

/-- The token returns to OFF once every member group of the holding register has ended (R145). -/
def Team.tokenCheck (t : Team) : Team :=
  match t.token with
  | none => t
  | some cv =>
    match t.cvs.find cv with
    | none => t
    | some v => if v.members.all (fun m => ((t.groups[m]?).map Group.ended).getD true) then { t with token := none } else t

/-- What the end of threads brings about in a team: phases, rings, the token, captures of groups that have ended, and
the end of the team (R119, R138, R145, R183, R185). -/
def Team.afterExit (t : Team) : Team :=
  let t := t.cvAdvanceAll.closeRings.tokenCheck
  let t := { t with captures := t.captures.filter (fun k => !((t.groups[k.grp]?).map Group.ended).getD true) }
  if t.state == .running && t.groups.all Group.ended then { t with state := .ended } else t

/-- Threads of one group exit (R119, R187). -/
def State.exitLanes (s : State) (c r g : Nat) (lanes : List Nat) : State :=
  let leaving := fun (w : LaneId) => w.core == c && w.tr == r && w.grp == g && lanes.contains w.lane
  let s := s.watchRestart (((s.team c r).map (·.ids.task)).getD (2 ^ 64))
  let s := s.payGrants ((s.die (dieOf c)).owedGrants (fun _ w => leaving w))
  let slot := (((s.team c r).bind (fun t => t.groups[g]?)).map (·.slot)).getD 0
  let s := s.modTeam c r (fun t =>
    ((t.modGroup g (fun g => lanes.foldl (fun g l => g.modThread l Thread.exit) g)).afterExit).noteReady (s.coreCycles c, slot))
  s.modDie (dieOf c) (·.releaseLocks leaving)

end Sys2Proof.Machine
end

