-- ==== Sys2Proof/Machine/NearOps.lean ====
section
/-!
DEFINITION. NearOps: the near memories as operations: places and the probe (R154 to R158), bytes and poison (R161, R389),
the waiting requests of tile-store banks and peer ports (R202 to R206), and region states as near memory meets them
(R209, R339).
-/

namespace Sys2Proof.Machine

/-! ### Places -/

/-- A near memory and the physical byte addresses in it. -/
inductive NearUnit where
  | scratch (core : Nat)
  | tile (die : Nat)
  | const (core : Nat)
  deriving DecidableEq, Repr

/-- The near spaces of an instruction (R154). -/
inductive NearSpace where
  | scratch | tile | peer | const
  deriving DecidableEq, Repr

/-- The near space of a SPACE field (R57, R165). -/
def NearSpace.ofCode (c : BitVec 2) : NearSpace :=
  match c.toNat with
  | 0 => .scratch
  | 1 => .tile
  | _ => .peer

/-- Bytes of a grant unit: 1,024 lines (R204). -/
def grantBytes : Nat := 1024 * 256

/-- Bytes of a die's tile store: 256 lines in each healthy bank (R204). -/
def State.tileBytes (s : State) (die : Nat) : Nat := 65536 * (512 - (s.hours.fenced.banks.filter (fun b => b.1 == die)).length)

/-- The grant of a context on a die: base and length in bytes (R204, R328). Lines that fenced banks have taken from the top of the numbering are
outside it (log 87). -/
def State.grant (s : State) (ctx die : Nat) : Nat × Nat :=
  let g := (s.ctx ctx).grant.getD die (0, 0)
  (g.1 * grantBytes, min (g.2 * grantBytes) (s.tileBytes die - g.1 * grantBytes))

/-- The place of an access in bounds, or its fault kind 6 or 1 (R154, R155). -/
def nearLocate (s : State) (c : Nat) (team : Team) (sp : NearSpace) (a size : Nat) : Except Nat (NearUnit × Nat) :=
  match sp with
  | .scratch => if a + size ≤ team.env.scratchSize then .ok (.scratch c, team.env.scratchBase + a) else .error 1
  | .const => if a + size ≤ team.env.constSize then .ok (.const c, team.env.constBase + a) else .error 1
  | .tile =>
    let g := s.grant team.ids.ctx (dieOf c)
    if a + size ≤ g.2 then .ok (.tile (dieOf c), g.1 + a) else .error 1
  | .peer =>
    match team.ids.peers[a / 2 ^ 28 % 16]? with
    | none => .error 6
    | some p =>
      let off := a % 2 ^ 20
      match s.team p.1 p.2 with
      | none => .error 1
      | some q =>
        if a / 2 ^ 20 % 256 = 0 ∧ a / 2 ^ 32 = 0 ∧ off + size ≤ q.env.scratchSize then
          .ok (.scratch p.1, q.env.scratchBase + off)
        else .error 1

/-- The memory of a place. -/
def State.nearMem (s : State) : NearUnit → Memory
  | .scratch c => (s.core c).scratch
  | .const c => (s.core c).const
  | .tile d => (s.die d).tile

/-- Replaces the memory of a place. -/
def State.setNearMem (s : State) (u : NearUnit) (m : Memory) : State :=
  match u with
  | .scratch c => s.modCore c (fun k => { k with scratch := m })
  | .const c => s.modCore c (fun k => { k with const := m })
  | .tile d => s.modDie d (fun k => { k with tile := m })

/-- Where the poison of a near word is recorded (R389). -/
def NearUnit.poisonAt (u : NearUnit) (w : Nat) : PoisonAt :=
  match u with
  | .scratch c => .scratch c w
  | .const c => .const c w
  | .tile d => .tile d w

/-- The unit number of a near memory in an error record (R395). -/
def NearUnit.unitCode : NearUnit → Nat
  | .scratch _ => 2
  | .const _ => 3
  | .tile _ => 4

/-- Reads bytes of a near memory, little-endian. -/
def State.nearRead (s : State) (u : NearUnit) (p size : Nat) : Nat := (s.nearMem u).readLE p size

/-- The words of 8 bytes that an access touches. -/
def wordsOf (p size : Nat) : List Nat := (List.range ((p + size - 1) / 8 - p / 8 + 1)).map (p / 8 + ·)

/-- A poisoned word that a read touches (R390). -/
def State.nearPoison (s : State) (u : NearUnit) (p size : Nat) : Option Nat :=
  (wordsOf p size).find? (fun w => s.hours.poison.contains (u.poisonAt w))

/-- The operation that the engine executes: the oldest not yet executed, once no other waits to land. -/
def Core.nextOp (k : Core) : Option MatOp :=
  match k.engine with
  | o :: _ => if o.results.isNone then some o else k.engine.find? (fun x => x.results.isNone)
  | [] => none

/-- The engine's operation remembers the bytes of the constant store that are written while it executes (R150). -/
def Core.keepOlds (k : Core) (p size : Nat) : Core :=
  match k.nextOp with
  | none => k
  | some o =>
    let new := ((List.range size).map (p + ·)).filter (fun a => !o.olds.any (fun e => e.1 = a))
    { k with engine := k.engine.map (fun x => if x = o then { o with olds := o.olds ++ new.map (fun a => (a, k.const.read a)) } else x) }

/-- A near memory about to be written: an operation that executes keeps what it may still read (R150). -/
def State.beforeWrite (s : State) (u : NearUnit) (p size : Nat) : State :=
  match u with
  | .const c => s.modCore c (·.keepOlds p size)
  | _ => s

/-- Writes bytes of a near memory; poison goes where all 8 bytes of a word are written (R389). -/
def State.nearWrite (s : State) (u : NearUnit) (p v size : Nat) : State :=
  let full := (wordsOf p size).filter (fun w => decide (p ≤ 8 * w) && decide (8 * w + 8 ≤ p + size))
  let s := (s.beforeWrite u p size).setNearMem u ((s.nearMem u).writeLE p v size)
  { s with hours := { s.hours with poison := s.hours.poison.filter (fun x => !full.any (fun w => x == u.poisonAt w)) } }

/-! ### Tile-store lines (R204, R208) -/

/-- The tile-store line of a physical byte. -/
def tileLine (p : Nat) : Nat := p / 256

/-- The healthy banks of a die, ascending (R204). -/
def State.healthyBanks (s : State) (die : Nat) : List Nat :=
  (List.range 512).filter (fun b => !s.hours.fenced.banks.contains (die, b))

/-- The bank of a line (R204). -/
def State.bankOf (s : State) (die line : Nat) : Nat :=
  let h := s.healthyBanks die
  h.getD (line % h.length) 0

/-- Whether a tile-store byte of a context is frozen or thawing (R209). -/
def State.tileFrozen (s : State) (ctx die p : Nat) : Bool :=
  match (s.ctx ctx).effectiveOn die (apertureAddr die (p - (s.grant ctx die).1)) with
  | .frozen _ | .thawing => true
  | _ => false

/-- Whether a word has a live lock queue. -/
def State.lockWord (s : State) (die w : Nat) : Bool := ((s.die die).locks.find w).isSome

/-- A counted line loses one count; at zero it is Spent and its bytes are set to zero (R158, R208). -/
def State.consumeLine (s : State) (die line : Nat) : State :=
  match (s.die die).counts.find line with
  | none => s
  | some k =>
    if k.count = 0 then s
    else
      let s := s.modDie die (fun d => { d with counts := d.counts.insert line { k with count := k.count - 1 } })
      if k.count = 1 then s.setNearMem (.tile die) ((s.nearMem (.tile die)).forget (line * 256) 256) else s

/-! ### The probe (R155, R156) -/

/-- What an access asks of the probe. -/
structure NearAsk where
  space : NearSpace
  size : Nat
  write : Bool
  deriving DecidableEq, Repr

/-- The place of a lane's access, or the fault kind that the probe finds first (R155). -/
def probeLane (s : State) (c : Nat) (team : Team) (k : NearAsk) (a : Nat) : Except Nat (NearUnit × Nat) :=
  match nearLocate s c team k.space a k.size with
  | .error e => .error e
  | .ok (u, p) =>
    if a % k.size ≠ 0 then .error 2
    else match u with
      | .tile d =>
        if (wordsOf p k.size).any (s.lockWord d) then .error 5
        else if k.write && s.tileFrozen team.ids.ctx d p then .error 3
        else if (((s.die d).counts.find (tileLine p)).map (fun l => l.count == 0)).getD false then .error 4
        else .ok (u, p)
      | _ => .ok (u, p)

/-- Records masked lanes in %faultmask (R26, R156): the lowest lane fixes KIND and FIRSTPC of the first fault. -/
def Group.maskFault (g : Group) (lanes : List Nat) (kind pcOff : Nat) : Group :=
  let m := g.faultmask
  { g with faultmask :=
      if m.lanes = 0 then { lanes := laneMask lanes, kind := kind, firstpc := pcOff / 4 % 2 ^ 28 }
      else { m with lanes := m.lanes ||| laneMask lanes } }

/-- A lane that passed the probe, with its address and place. -/
structure NearLane where
  c : LaneCtx
  addr : Nat
  unit : NearUnit
  place : Nat
  deriving DecidableEq, Repr

/-- What becomes of an access after its probe: it issues, or it waits and is probed again, with what its waiting changes. -/
inductive Access where
  | waits (f : State → State)
  | goes (o : Host.Outcome State Fault Refusal)

/-- An access that waits and changes nothing. -/
def Access.wait : Access := .waits id

/-- The outcome of an instruction whose access waits or goes; `s` is the state before its probe. -/
def Access.outcome (a : Access) (s : State) (core : Nat) : Host.Outcome State Fault Refusal :=
  match a with
  | .waits f => stall (f s) core
  | .goes o => o

/-- The probe of an instruction (R156): a lane in stop mode stops the whole instruction with code 0x06; otherwise the
failing lanes are switched off, and recorded if the instruction issues, and `body` goes on with the others. -/
def probeAll (s : State) (is : Issue) (lanes : List (LaneCtx × Nat × Except Nat (NearUnit × Nat)))
    (body : State → List NearLane → Access) : Host.Outcome State Fault Refusal :=
  let bad := lanes.filterMap (fun e => match e.2.2 with
    | .error k => some (e.1, e.2.1, k)
    | .ok _ => none)
  let ok := lanes.filterMap (fun e => match e.2.2 with
    | .error _ => none
    | .ok u => some { c := e.1, addr := e.2.1, unit := u.1, place := u.2 })
  match bad with
  | [] => (body s ok).outcome s is.t.core
  | (_, a0, k0) :: _ =>
    if bad.any (fun e => e.1.th.xstop) then
      takeTrap s is.t 6 0 k0 (bad.map (·.1.lane)) (BitVec.ofNat 64 a0) (BitVec.ofNat 64 is.t.ipc)
    else
      (body (s.modGroup is.t.core is.t.tr is.t.grp
        (·.maskFault (bad.map (·.1.lane)) k0 (is.t.ipc - is.team.env.codeBase))) ok).outcome s is.t.core

/-! ### Costs (R162, R195) -/

/-- The bank cost of a scratchpad access (R162, R203): the largest count of distinct bank words in one bank of one core, from the places of the
lanes that passed the probe. -/
def bankCost (ok : List NearLane) (size : Nat) : Nat :=
  let ws := (ok.flatMap (fun n => (wordsOf n.place size).map (fun w => (n.unit, w)))).eraseDups
  ws.foldl (fun m e => max m (ws.filter (fun x => x.1 == e.1 && x.2 % 32 == e.2 % 32)).length) 1

/-- Distinct aligned 16-byte units (R195, LDC). -/
def unitCost (ok : List NearLane) (size : Nat) : Nat :=
  max 1 (ok.flatMap (fun n => (wordsOf n.place size).map (· / 2))).eraseDups.length

/-- Whether the 4 KiB of a tile-store byte are marked (R157): one of its lines is counted, Spent, frozen or holds a lock queue. -/
def State.marked (s : State) (ctx die p : Nat) : Bool :=
  (s.die die).counts.any (fun e => e.1 / 16 == p / 4096) || (s.die die).locks.any (fun e => e.1 / 512 == p / 4096) ||
    (List.range 16).any (fun i => s.tileFrozen ctx die (p / 4096 * 4096 + 256 * i))

/-- Whether a lane's probe of a tile-store load asks the banks (R157): its place is marked, or its line's state failed it. -/
def State.asksBanks (s : State) (is : Issue) (e : LaneCtx × Nat × Except Nat (NearUnit × Nat)) : Bool :=
  match e.2.2 with
  | .error k => decide (3 ≤ k) && decide (k ≤ 5)
  | .ok u => s.marked is.team.ids.ctx (dieOf is.t.core) u.2

/-- The slot cycles of a near instruction (R162, R195): `asks` says that a probe of the tile store asks the banks (R157). -/
def nearCost (sp : NearSpace) (atom asks : Bool) (size : Nat) (ok : List NearLane) : Nat :=
  (match sp with
   | .scratch | .peer => bankCost ok size
   | .const => unitCost ok size
   | .tile => if asks then 17 else 1) + atom.toNat

/-! ### Requests at banks and ports (R202, R205) -/

/-- Splits an access of 16 bytes into its two halves (R161). -/
def halves (size : Nat) : List (Nat × Nat) := if size = 16 then [(0, 8), (8, 8)] else [(0, size)]

/-- Groups one instruction's lane accesses by sector or bank word, in order of first use. -/
def groupByPlace (tile : Bool) (accs : List (Nat × Nat × NearOp)) : List (Nat × List (Nat × Nat × NearOp)) :=
  let key := fun (a : Nat) => if tile then a / 64 else a / 8
  ((accs.map (fun e => key e.2.1)).eraseDups).map (fun k => (k, accs.filter (fun e => key e.2.1 = k)))

/-- Whether an operation writes. -/
def NearOp.writes : NearOp → Bool
  | .load .. => false
  | _ => true

/-- The requests that one instruction's accesses to a unit make. -/
def State.makeReqs (s : State) (t : Turn) (task : Nat) (u : NearUnit) (id : Nat) (accs : List (Nat × Nat × NearOp)) : List NearReq :=
  let tile := match u with
    | .tile _ => true
    | _ => false
  let unit := match u with
    | .tile d => d
    | .scratch c | .const c => c
  (groupByPlace tile accs).map (fun e =>
    { tile := tile, own := false, unit := unit, bank := if tile then s.bankOf unit (e.1 / 4) else e.1 % 32,
      write := e.2.any (fun x => x.2.2.writes), place := e.1, core := t.core, tr := t.tr, grp := t.grp, task := task, pend := id, lanes := e.2 })

/-- Requests waiting at a tile-store bank's write queue. -/
def Die.bankWrites (d : Die) (bank : Nat) : Nat := (d.tileReqs.filter (fun q => q.write && q.bank == bank)).length

/-- Whether the write queues have a place for each of these requests (R205). -/
def Die.roomFor (d : Die) (qs : List NearReq) : Bool :=
  qs.all (fun q => decide (d.bankWrites q.bank + (qs.filter (fun x => x.bank == q.bank)).length ≤ 256))

/-- Whether a peer's ports can take one more instruction of a core: at most 4 wait (R202). -/
def Core.peerRoom (k : Core) (c : Nat) : Bool :=
  decide (((k.peerReqs.filter (fun q => q.core == c && !q.own)).map (·.pend)).eraseDups.length < 4)

/-- Whether a group's turn is in progress or set aside. -/
def State.turnOf (s : State) (core tr grp : Nat) : Bool :=
  let of := fun (t : Turn) => t.core == core && t.tr == tr && t.grp == grp
  s.turn.any of || s.parked.any (fun p => of p.turn)

/-- Whether a group that asks a bank for a place comes first of those that wait for one (R205). -/
def State.askedFirst (s : State) (die : Nat) (t : Turn) (bank : Nat) : Bool :=
  match (s.die die).askers.find? (fun a => a.2.2.2 == bank && s.turnOf a.1 a.2.1 a.2.2.1) with
  | some a => a.1 == t.core && a.2.1 == t.tr && a.2.2.1 == t.grp
  | none => true

/-- A group waits for places in these banks' write queues, behind those that wait already (R205). -/
def State.ask (s : State) (die : Nat) (t : Turn) (banks : List Nat) : State :=
  s.modDie die (fun d => { d with askers := d.askers ++ (banks.map (fun b => (t.core, t.tr, t.grp, b))).filter (fun a => !d.askers.contains a) })

/-- A group waits for no place any more; those whose turns have ended are forgotten. -/
def State.unask (s : State) (die : Nat) (t : Turn) : State :=
  s.modDie die (fun d => { d with askers := d.askers.filter (fun a =>
    !(a.1 == t.core && a.2.1 == t.tr && a.2.2.1 == t.grp) && s.turnOf a.1 a.2.1 a.2.2.1) })

/-- Whether a core has a request waiting for a sector. -/
def Die.waiting (d : Die) (c sector : Nat) : Bool := d.tileReqs.any (fun q => q.core == c && q.place == sector)

/-- Queues requests. -/
def State.enqueue (s : State) (qs : List NearReq) : State :=
  qs.foldl (fun s q =>
    if q.tile then s.modDie q.unit (fun d => { d with tileReqs := d.tileReqs ++ [q] })
    else s.modCore q.unit (fun k => { k with peerReqs := k.peerReqs ++ [q] })) s

/-! ### Atomic combination (R49, R166, R167) -/

/-- Width in bytes of an ATOM type (R166). -/
def atomBytes (type : Nat) : Nat :=
  match type with
  | 0 | 1 | 8 => 8
  | 2 | 9 | 14 => 4
  | _ => 2

/-- One step of an atomic or a reduction on an element of `type` (R49, R167): RNE, no flush, no flag. -/
def combine (op type m b comparand : Nat) : Nat :=
  let w := 8 * atomBytes type
  match op with
  | 4 => m &&& b
  | 5 => m ||| b
  | 6 => m ^^^ b
  | 7 => b
  | 8 => if m = comparand then b else m
  | _ =>
    match Fmt.ofCode type with
    | some T =>
      match op with
      | 1 => (T.round { rm := 0, sat := false, ftz := false, rnd := 0, srcUnit := none }
          (exactAdd false (T.decode m).toExact (T.decode b).toExact).1).1
      | _ => (T.minMax false (op == 3) m b).1
    | none =>
      match op with
      | 1 => (m + b) % 2 ^ w
      | _ =>
        let le := if intSigned type then decide (sgn w m ≤ sgn w b) else decide (m ≤ b)
        if le == (op == 2) then m else b

/-- Performs one lane's operation at a place; a load or atom gives the register and the value it receives. -/
def State.performOp (s : State) (u : NearUnit) (p : Nat) (o : NearOp) : State × Option (Nat × Word) :=
  match o with
  | .load size sx reg =>
    let v := s.nearRead u p size
    (s, some (reg, if sx then BitVec.ofInt 64 (sgn (8 * size) v) else BitVec.ofNat 64 v))
  | .store size v => (s.nearWrite u p v size, none)
  | .atom op type b comparand reg =>
    let n := atomBytes type
    let m := s.nearRead u p n
    let w := 2 ^ (8 * n)
    (s.nearWrite u p (combine op type m (b % w) (comparand % w)) n, reg.map (fun r => (r, BitVec.ofNat 64 m)))

/-- Bytes that an operation reads. -/
def NearOp.readSize : NearOp → Nat
  | .load size .. => size
  | .atom _ type .. => atomBytes type
  | .store .. => 0

/-- The device virtual address of a physical byte of a unit that a context uses: of a tile store in its aperture (R209); the other near memories
have none, and a record says 0 (log 88). -/
def State.nearVa (s : State) (u : NearUnit) (ctx p : Nat) : Nat :=
  match u with
  | .tile d => apertureAddr d (p - (s.grant ctx d).1)
  | _ => 0

/-- Performs the accesses of one request, lane by lane ascending (R49, R161); a read of a poisoned word gives no value
and contains the task (R390). -/
def State.performReq (s : State) (q : NearReq) : State :=
  let u : NearUnit := if q.tile then .tile q.unit else .scratch q.unit
  let ctx := ((s.sched.tasks.find q.task).map (·.ctx)).getD 0
  q.lanes.foldl (fun s e =>
    let bad := if e.2.2.readSize = 0 then none else s.nearPoison u e.2.1 e.2.2.readSize
    match bad with
    | some w => s.consumePoison q.task u.unitCode q.core w (s.nearVa u ctx (8 * w))
    | none =>
      let r := s.performOp u e.2.1 e.2.2
      match r.2 with
      | some v => r.1.modThread q.core q.tr q.grp e.1 (fun th => th.resolveReg q.pend v.1 v.2)
      | none => r.1) s

/-- The next request that a tile-store bank performs (R205): the queues alternate while both hold requests; a read waits
behind its core's earlier writes to the sector. -/
def Die.nextReq (d : Die) (bank : Nat) : Option NearReq :=
  let qs := d.tileReqs.filter (fun q => q.bank == bank)
  let w := qs.find? (·.write)
  let r := qs.find? (fun q => !q.write)
  let blocked := fun (q : NearReq) => (qs.takeWhile (fun x => x != q)).any (fun x => x.write && x.core == q.core && x.place == q.place)
  match w, r with
  | some w, some r => if d.lastWrite.contains bank && !blocked r then some r else some w
  | some w, none => some w
  | none, r => r

/-- The earlier reads of the same core to the sector of a write, which the bank performs before it (R205). -/
def Die.readsBefore (d : Die) (w : NearReq) : List NearReq :=
  (d.tileReqs.takeWhile (fun x => x != w)).filter (fun x => !x.write && x.core == w.core && x.place == w.place && w.write)

/-- One bank cycle of a tile-store bank (R205). -/
def State.bankStep (s : State) (die bank : Nat) : State :=
  match (s.die die).nextReq bank with
  | none => s
  | some q =>
    let rs := (s.die die).readsBefore q ++ [q]
    let s := s.modDie die (fun d =>
      { d with tileReqs := d.tileReqs.filter (fun x => !rs.contains x),
               lastWrite := if q.write then (if d.lastWrite.contains bank then d.lastWrite else d.lastWrite ++ [bank])
                            else d.lastWrite.filter (· != bank) })
    rs.foldl State.performReq s

/-- One cycle of a peer port at a scratchpad bank (R202): requests in order of arrival. -/
def State.peerStep (s : State) (core bank : Nat) : State :=
  match (s.core core).peerReqs.find? (fun q => q.bank == bank) with
  | none => s
  | some q =>
    (s.modCore core (fun k => { k with peerReqs := k.peerReqs.filter (fun x => x != q) })).performReq q

end Sys2Proof.Machine
end

