-- ==== Sys2Proof/Machine/NearMem.lean ====
section
/-!
DEFINITION. NearMem: the near-memory majors LDS, LDT, LDC, LDX, ST and ATOM (R154 to R167), LOCK and UNLOCK (R186), and
the bank, port and lock steps that serve them (R202, R205 to R207).
-/

namespace Sys2Proof.Machine

/-! ### Shared operations -/

/-- A commit point issues (R191, R345). -/
def State.commitTask (s : State) (task : Nat) : State :=
  match s.sched.tasks.find task with
  | none => s
  | some t =>
    let st := match t.state with
      | .opened => .committed
      | .stopping _ => .stopping true
      | x => x
    { s with sched := { s.sched with tasks := s.sched.tasks.insert task { t with state := st } } }

/-- Bytes and sign extension of a load's SZ (R57). -/
def loadForm (sz : BitVec 3) : Nat × Bool :=
  if sz.toNat ≤ 4 then (2 ^ sz.toNat, false) else (2 ^ (sz.toNat - 5), true)

/-- A pending write of a near access (R67): values not known yet are none. -/
def Pending.ofNear (id win : Nat) (regs : List (Nat × Option Word)) : Pending :=
  { id := id, regs := regs, preds := [], win := win, inRun := true, awaited := [], awaitAll := false, landed := false, near := true,
    matrix := false, hold := false, fp := false, fixed := false }

/-- A thread that has issued a near access: older writes to its destinations are cancelled, and its own is pending. -/
def Thread.issueNear (th : Thread) (i : Instr) (t : Turn) (p : Option Pending) : Thread :=
  let th := (th.cancel ((writeFields i).map th.ix) (writePreds i)).advance t.len
  match p with
  | some p => { th with pend := th.pend ++ [p] }
  | none => th

/-- Whether a lane's access is a release beyond the group (R163, R251). -/
def LaneCtx.releases (c : LaneCtx) : Bool := (c.m.order == 2 || c.m.order == 3) && decide (1 ≤ c.m.scope)

/-- Whether a lane's access acquires (R163). -/
def LaneCtx.acquires (c : LaneCtx) : Bool := c.m.order == 1 || c.m.order == 3

/-- Whether some lane's release must wait for its older accesses (R163). -/
def releaseWaits (s : State) (is : Issue) (ls : List LaneCtx) : Bool :=
  ls.any (fun c => c.releases && s.outstanding is.t.core is.t.tr is.t.grp c.lane)

/-- The tile-store lines that lanes touch. -/
def linesOf (ok : List NearLane) : List Nat := (ok.map (fun n => tileLine n.place)).eraseDups

/-- Whether an access of the core's own to one of these sectors still waits at the banks. -/
def sectorsBusy (s : State) (is : Issue) (ok : List NearLane) : Bool :=
  ok.any (fun n => match n.unit with
    | .tile d => (s.die d).waiting is.t.core (n.place / 64)
    | _ => false)

/-- A lane's operations, one for each half of a 16-byte access. -/
structure LaneOps where
  n : NearLane
  ops : List (Nat × NearOp)
  deriving DecidableEq, Repr

/-- The registers that operations write. -/
def LaneOps.regs (l : LaneOps) : List Nat :=
  l.ops.filterMap (fun o => match o.2 with
    | .load _ _ r => some r
    | .atom _ _ _ _ r => r
    | .store .. => none)

/-- Performs the operations of every lane at once, ascending (R49, R161), with the values that registers receive. -/
def performNow (s : State) (ls : List LaneOps) : State × List (Nat × List (Nat × Word)) :=
  ls.foldl (fun acc l =>
    let r := l.ops.foldl (fun (a : State × List (Nat × Word)) o =>
      let v := a.1.performOp l.n.unit (l.n.place + o.1) o.2
      (v.1, a.2 ++ v.2.toList)) (acc.1, [])
    (r.1, acc.2 ++ [(l.n.c.lane, r.2)])) (s, [])

/-- A poisoned word that the operations read, and its unit. -/
def poisonRead (s : State) (ls : List LaneOps) : Option (NearUnit × Nat) :=
  ls.findSome? (fun l => l.ops.findSome? (fun o =>
    if o.2.readSize = 0 then none
    else (s.nearPoison l.n.unit (l.n.place + o.1) o.2.readSize).map (fun w => (l.n.unit, w))))

/-- Whether an instruction's near access returns a value or is an ATOM: what an acquire waits for (R163, R164). -/
def acquirable : Instr → Bool
  | .lds .. | .ldt .. | .ldc .. | .ldx .. | .atom .. => true
  | _ => false

/-- The threads of an issue set after a near access: `vals` gives the values that a lane's registers receive, with none for one that performed
nothing, and a lane that acquires is ordered before its younger accesses (R163). -/
def nearThreads (is : Issue) (i : Instr) (id la : Nat) (vals : Nat → Option (List (Nat × Option Word))) : List (Nat × Thread) :=
  is.lanes.map (fun c =>
    let th := c.th.issueNear i is.t ((vals c.lane).bind (fun rs => if rs.isEmpty then none else some (Pending.ofNear id la rs)))
    (c.lane, if acquirable i && c.acquires && (vals c.lane).isSome then { th with acqs := th.acqs ++ [id] } else th))

/-- What performing operations at once gave the registers of a lane, those still to come among them. -/
def LaneOps.received (l : LaneOps) (r : List (Nat × List (Nat × Word))) : List (Nat × Option Word) :=
  let vs := ((r.find? (·.1 = l.n.c.lane)).map (·.2)).getD []
  l.regs.map (fun x => (x, (vs.find? (·.1 = x)).map (·.2)))

/-- Performs a near access at issue: own scratchpad, constant store, and tile-store lines that hold a count. The upper halves of 16 bytes of
scratchpad are a second access (R161), which waits for the port with `later`. -/
def nearImmediate (i : Instr) (s : State) (is : Issue) (la cost : Nat) (consume : Bool) (ls : List LaneOps) (later : List NearReq) : Access :=
  let now := if later.isEmpty then ls else ls.map (fun l => { l with ops := l.ops.take 1 })
  match poisonRead s now with
  | some p => .goes (.next (s.consumePoison is.team.ids.task p.1.unitCode is.t.core p.2 (s.nearVa p.1 is.team.ids.ctx (8 * p.2))))
  | none =>
    let r := performNow s now
    let s' := if consume then (linesOf (ls.map (·.n))).foldl (fun s l => s.consumeLine (dieOf is.t.core) l) r.1 else r.1
    .goes (.next (complete (s'.enqueue later) is.t (nearThreads is i s.tick la (fun l =>
      (ls.find? (fun x => x.n.c.lane = l)).map (·.received r.2))) cost))

/-- The requests that an access makes at the units it names. -/
def requestsOf (s : State) (is : Issue) (ls : List LaneOps) : List NearReq :=
  ((ls.map (·.n.unit)).eraseDups).flatMap (fun u =>
    s.makeReqs is.t is.team.ids.task u s.tick ((ls.filter (fun l => l.n.unit == u)).flatMap (fun l => l.ops.map (fun o => (l.n.c.lane, l.n.place + o.1, o.2)))))

/-- The upper halves of 16-byte accesses to the core's own scratchpad (R161). -/
def upperHalves (s : State) (is : Issue) (ls : List LaneOps) : List NearReq :=
  (requestsOf s is ((ls.map (fun l => { l with ops := l.ops.drop 1 })).filter (fun l => !l.ops.isEmpty))).map (fun q => { q with own := true })

/-- Queues a near access at the banks or ports of the places it names, once there is room (R202, R205). -/
def nearQueued (i : Instr) (s : State) (is : Issue) (la cost : Nat) (ls : List LaneOps) : Access :=
  let units := (ls.map (·.n.unit)).eraseDups
  let reqs := requestsOf s is ls
  let writes := reqs.filter (fun q => q.write && q.tile)
  let banks := (writes.map (·.bank)).eraseDups
  let die := dieOf is.t.core
  let fits := units.all (fun u => match u with
    | .tile d => (s.die d).roomFor writes && banks.all (s.askedFirst d is.t)
    | .scratch c | .const c => (s.core c).peerRoom is.t.core)
  if !fits then .waits (fun s => s.ask die is.t banks)
  else
    let s := if banks.isEmpty then s else s.unask die is.t
    .goes (.next (complete (s.enqueue reqs) is.t (nearThreads is i s.tick la (fun l =>
      (ls.find? (fun x => x.n.c.lane = l)).map (fun x => x.regs.map (fun r => (r, none))))) cost))

/-- Whether an earlier access of a lane's own to the same bank words of its core's scratchpad waits at a port (R248): the lane's next access to
them is later in program order. -/
def ownScratchWaits (s : State) (is : Issue) (ls : List LaneOps) : Bool :=
  ls.any (fun l => match l.n.unit with
    | .scratch c => c == is.t.core && (s.core c).peerReqs.any (fun q => q.core == is.t.core && q.tr == is.t.tr && q.grp == is.t.grp &&
        l.ops.any (fun o => q.place == (l.n.place + o.1) / 8) && q.lanes.any (·.1 = l.n.c.lane))
    | _ => false)

/-- A near access after its probe (R157 to R163): a release waits, a tile-store line that holds a count is read at
issue, and every other tile-store or peer access is queued. A commit point commits as it issues (R191). -/
def nearAccess (i : Instr) (s : State) (is : Issue) (sp : NearSpace) (la cost : Nat) (consume commit : Bool) (ls : List LaneOps) : Access :=
  if (ls.any (fun l => l.ops.any (fun o => o.2.writes))) && releaseWaits s is (ls.map (·.n.c)) then .wait
  else
    let s' := if commit && !ls.isEmpty then s.commitTask is.team.ids.task else s
    let counted := sp == .tile && (consume || (linesOf (ls.map (·.n))).any (fun l => ((s.die (dieOf is.t.core)).counts.find l).isSome))
    if counted then
      if sectorsBusy s is (ls.map (·.n)) then .wait else nearImmediate i s' is la cost consume ls []
    else match sp with
      | .scratch => if ownScratchWaits s is ls then .wait else nearImmediate i s' is la cost false ls (upperHalves s is ls)
      | .const => nearImmediate i s' is la cost false ls []
      | .tile | .peer => nearQueued i s' is la cost ls

/-- The loads (R159). -/
def nearLoad (sp : NearSpace) (i : Instr) (d b : BitVec 7) (o : BitVec 6) (sz : BitVec 3) (l : BitVec 4) (s : State) :
    Host.Outcome State Fault Refusal :=
  issue i s (fun s is =>
    let f := loadForm sz
    let lanes := is.acting.map (fun c =>
      let a := (c.th.rd b + memOffset is.t.pfx o f.1).toNat
      (c, a, probeLane s is.t.core is.team { space := sp, size := f.1, write := false } a))
    let consume := sp == .tile && is.acting.any (·.m.consume)
    let asks := consume || lanes.any (s.asksBanks is)
    probeAll s is lanes (fun s ok =>
      nearAccess i s is sp l.toNat (nearCost sp false asks f.1 ok) consume false
        (ok.map (fun n => { n := n, ops := (halves f.1).zipIdx.map (fun h =>
          (h.1.1, .load h.1.2 f.2 (n.c.th.ix (d.toNat + h.2)))) }))))

/-! ### Loads, stores and atomics -/

/-- LDS. -/
def execLds (d b : BitVec 7) (o : BitVec 6) (sz : BitVec 3) (l : BitVec 4) (s : State) : Host.Outcome State Fault Refusal :=
  nearLoad .scratch (.lds d b o sz l) d b o sz l s
/-- LDT. -/
def execLdt (d b : BitVec 7) (o : BitVec 6) (sz : BitVec 3) (l : BitVec 4) (s : State) : Host.Outcome State Fault Refusal :=
  nearLoad .tile (.ldt d b o sz l) d b o sz l s
/-- LDC. -/
def execLdc (d b : BitVec 7) (o : BitVec 6) (sz : BitVec 3) (l : BitVec 4) (s : State) : Host.Outcome State Fault Refusal :=
  nearLoad .const (.ldc d b o sz l) d b o sz l s
/-- LDX. -/
def execLdx (d b : BitVec 7) (o : BitVec 6) (sz : BitVec 3) (l : BitVec 4) (s : State) : Host.Outcome State Fault Refusal :=
  nearLoad .peer (.ldx d b o sz l) d b o sz l s

/-- ST (R160). -/
def execSt (d b : BitVec 7) (o : BitVec 6) (sz : BitVec 3) (p : BitVec 2) (z : BitVec 1) (s : State) :
    Host.Outcome State Fault Refusal :=
  issue (.st d b o sz p z) s (fun s is =>
    let size := 2 ^ sz.toNat
    let sp := NearSpace.ofCode p
    let lanes := is.acting.map (fun c =>
      let a := (c.th.rd b + memOffset is.t.pfx o size).toNat
      (c, a, probeLane s is.t.core is.team { space := sp, size := size, write := true } a))
    probeAll s is lanes (fun s ok =>
      nearAccess (.st d b o sz p z) s is sp 0 (nearCost sp false true size ok) false false
        (ok.map (fun n => { n := n, ops := (halves size).zipIdx.map (fun h =>
          (h.1.1, .store h.1.2 (if z == 1#1 then 0 else (n.c.th.reg (n.c.th.ix (d.toNat + h.2))).toNat))) }))))

/-- ATOM (R165 to R167); on the tile store it is a commit point (R191). -/
def execAtom (d a b : BitVec 7) (l : BitVec 4) (fn sp : BitVec 2) (op type : BitVec 4) (o : BitVec 6) (s : State) :
    Host.Outcome State Fault Refusal :=
  issue (.atom d a b l fn sp op type o) s (fun s is =>
    let size := atomBytes type.toNat
    let space := NearSpace.ofCode sp
    let lanes := is.acting.map (fun c =>
      let x := (c.th.rd a + memOffset is.t.pfx o size).toNat
      (c, x, probeLane s is.t.core is.team { space := space, size := size, write := true } x))
    probeAll s is lanes (fun s ok =>
      nearAccess (.atom d a b l fn sp op type o) s is space l.toNat (nearCost space true true size ok)
        (space == .tile && is.acting.any (·.m.consume)) (space == .tile)
        (ok.map (fun n => { n := n, ops := [(0, .atom op.toNat type.toNat (n.c.th.rd b).toNat (n.c.th.rd d).toNat
          (if fn.toNat = 0 then some (n.c.th.ix d.toNat) else none))] }))))

/-! ### Locks (R186) -/

/-- The lane of the package that a lane of the issue set is. -/
def Issue.laneId (is : Issue) (lane : Nat) : LaneId := { core := is.t.core, tr := is.t.tr, grp := is.t.grp, lane := lane }

/-- A lane holds the words whose queue it heads. -/
def Die.holds (d : Die) (who : LaneId) : Nat := (d.locks.filter (fun e => (e.2.head?).any (fun q => q.who == who))).length

/-- A lane waits where it stands behind the head. -/
def Die.waits (d : Die) (who : LaneId) : Bool := d.locks.any (fun e => (e.2.drop 1).any (fun q => q.who == who))

/-- The place of a LOCK or UNLOCK, or its fault kind (R155): `limit` is the limits of R186. -/
def probeLock (s : State) (is : Issue) (a : Nat) (limit : Die → Nat → Bool) : Except Nat (NearUnit × Nat) :=
  match nearLocate s is.t.core is.team .tile a 8 with
  | .error e => .error e
  | .ok (u, p) =>
    let d := s.die (dieOf is.t.core)
    if a % 8 ≠ 0 then .error 2
    else if limit d (p / 8) then .error 5
    else if ((d.counts.find (tileLine p)).map (fun l => l.count == 0)).getD false then .error 4
    else .ok (u, p)

/-- Whether the queue-lock units can take these requests: 32 words and 512 waiting requests each (R207). -/
def lockRoom (s : State) (die : Nat) (d : Die) : Bool :=
  ((d.locks.map (fun e => s.bankOf die (tileLine (8 * e.1)))).eraseDups).all (fun b =>
    let qs := d.locks.filter (fun e => s.bankOf die (tileLine (8 * e.1)) == b)
    decide (qs.length ≤ 32) && decide ((qs.map (fun e => e.2.length - 1)).sum ≤ 512))

/-- Appends a request to a word's queue. -/
def Die.lockAppend (d : Die) (w : Nat) (q : LockReq) : Die := { d with locks := d.locks.insert w ((d.locks.find w).getD [] ++ [q]) }

/-- Removes the head of a word's queue; an empty queue makes the word ordinary again. -/
def Die.lockRemove (d : Die) (w : Nat) : Die :=
  match (d.locks.find w).getD [] with
  | _ :: q :: r => { d with locks := d.locks.insert w (q :: r) }
  | _ => { d with locks := d.locks.erase w }

/-- The threads of an issue set after an instruction that writes no register late. -/
def plainThreads (is : Issue) (i : Instr) : List (Nat × Thread) := is.lanes.map (fun c => (c.lane, c.th.issueNear i is.t none))

/-- LOCK. -/
def execLock (a : BitVec 7) (n : BitVec 4) (s : State) : Host.Outcome State Fault Refusal :=
  issue (.lock a n) s (fun s is =>
    let die := dieOf is.t.core
    let lanes := is.acting.map (fun c =>
      let x := (c.th.rd a).toNat
      let who := is.laneId c.lane
      (c, x, probeLock s is x (fun d w => d.waits who || decide (8 ≤ d.holds who) || ((d.locks.find w).getD []).any (fun q => q.who == who))))
    probeAll s is lanes (fun s ok =>
      let d := ok.foldl (fun d n' => d.lockAppend (n'.place / 8) { who := is.laneId n'.c.lane, bar := n.toNat, granted := false }) (s.die die)
      if !lockRoom s die d then .wait
      else .goes (.next (complete (s.setDie die d) is.t (plainThreads is (.lock a n)) 17))))

/-- UNLOCK: a release at die scope of the lane's earlier near accesses. -/
def execUnlock (a : BitVec 7) (s : State) : Host.Outcome State Fault Refusal :=
  issue (.unlock a) s (fun s is =>
    let die := dieOf is.t.core
    let lanes := is.acting.map (fun c =>
      let x := (c.th.rd a).toNat
      (c, x, probeLock s is x (fun d w => !(((d.locks.find w).getD []).head?).any (fun q => q.who == is.laneId c.lane))))
    probeAll s is lanes (fun s ok =>
      if ok.any (fun n => s.outstanding is.t.core is.t.tr is.t.grp n.c.lane) then .wait
      else
        let owed := (s.die die).owedGrants (fun word w => ok.any (fun n => w == is.laneId n.c.lane && n.place / 8 == word))
        let s := (s.modDie die (fun d => ok.foldl (fun d n => d.lockRemove (n.place / 8)) d)).payGrants owed
        .goes (.next (complete s is.t (plainThreads is (.unlock a)) 17))))

/-! ### Bank, port and lock steps -/

/-- TILE_BANK_ACCESS (R205, R206): one bank cycle. -/
def execTileBankAccess (die bank : Nat) (s : State) : Host.Outcome State Fault Refusal := .next (s.bankStep die bank)

/-- PEER_PORT_ACCESS (R202): one cycle of a peer port. -/
def execPeerPortAccess (core bank : Nat) (s : State) : Host.Outcome State Fault Refusal := .next (s.peerStep core bank)

/-- LOCK_GRANT (R186, R187): the head's grant arrives on its barrier; a grant to a team that has ended is discarded and
the next request served. -/
def execLockGrant (die word : Nat) (s : State) : Host.Outcome State Fault Refusal :=
  match ((s.die die).locks.find word).getD [] with
  | [] => .next s
  | q :: r =>
    if q.granted then .next s
    else
      let live := ((s.team q.who.core q.who.tr).map (fun t => t.state == .running)).getD false
      if live then
        .next ((s.modDie die (fun d => { d with locks := d.locks.insert word ({ q with granted := true } :: r) })).barArrive
          q.who.core q.who.tr q.bar false).1
      else .next (s.modDie die (·.lockRemove word))

end Sys2Proof.Machine
end

