-- ==== Sys2Proof/Machine/Events.lean ====
section
/-!
DEFINITION. Events: what the package tells the host (R353) and what it records of errors (R387, R395, R396).
-/

namespace Sys2Proof.Machine

/-! ### Sessions and events (R349, R353) -/

/-- The session of an owner id. -/
def State.sessionOf (s : State) (owner : Nat) : Option Nat := (s.host.sessions.find? (fun e => e.2.owner == owner)).map (·.1)

/-- The session that owns a context. -/
def State.ownerSession (s : State) (ctx : Nat) : Option Nat := s.sessionOf (s.ctx ctx).owner

/-- Whether a session owns a context that is not free (R350). -/
def State.owns (s : State) (session ctx : Nat) : Bool :=
  (s.ctx ctx).state != .free && ((s.host.sessions.find session).map (fun x => x.owner == (s.ctx ctx).owner)).getD false

/-- Whether a context is live (R328). -/
def State.live (s : State) (ctx : Nat) : Bool := (s.ctx ctx).state == .live

/-- An event for one session: beyond 4,096 held it is lost (R353). -/
def Session.push (x : Session) (type ctx : Nat) (detail : List Nat) : Session :=
  if x.events.length < 4096 then
    { x with events := x.events ++ [{ type := type, ctx := ctx, lost := x.lost, seq := x.seq, detail := detail }], seq := (x.seq + 1) % 2 ^ 32 }
  else { x with lost := min (x.lost + 1) 0xFFFF }

/-- Sessions accept the events held for them, as many at a time as the control node takes (R353). -/
def State.acceptEvents (s : State) : State :=
  if s.host.sessions.all (fun e => e.2.events.isEmpty) then s
  else { s with host := { s.host with sessions := s.host.sessions.map (fun (e : Nat × Session) =>
    (e.1, { e.2 with events := e.2.events.drop (Config.freeChoice s.tick (e.1 + 2 ^ 52) % (e.2.events.length + 1)) })) } }

/-- Sends an event to a session; to one that is not open it is not sent. -/
def State.eventTo (s : State) (session type ctx : Nat) (detail : List Nat) : State :=
  match s.host.sessions.find session with
  | some x => { s with host := { s.host with sessions := s.host.sessions.insert session (x.push type ctx detail) } }
  | none => s

/-- Sends an event where R353 says: to the owner of its context, or to session 0. -/
def State.raiseEvent (s : State) (type ctx : Nat) (detail : List Nat) : State :=
  if ctx = 0 then s.eventTo 0 type 0 detail
  else match s.ownerSession ctx with
    | some n => s.eventTo n type ctx detail
    | none => s

/-! ### Power (R411) -/

/-- Whether queues are served: in P0 and P1. -/
def State.served (s : State) : Bool := s.hours.power == .p0 || s.hours.power == .p1

/-- Work ends P1. -/
def State.wakeUp (s : State) : State := if s.hours.power = .p1 then { s with hours := { s.hours with power := .p0 } } else s

/-! ### Error records (R395, R396) -/

/-- An error record's 64 bytes (R395). -/
def ErrorInfo.bits (e : ErrorInfo) (time seq : Nat) : BitVec 512 :=
  BitVec.ofNat 512 (e.cls % 2 ^ 8 + e.unit % 2 ^ 8 * 2 ^ 8 + e.die % 2 ^ 3 * 2 ^ 16 + e.ctx % 2 ^ 8 * 2 ^ 24 + e.index % 2 ^ 16 * 2 ^ 32 +
    e.addr % 2 ^ 48 * 2 ^ 64 + e.task % 2 ^ 64 * 2 ^ 128 + e.action % 2 ^ 8 * 2 ^ 192 + time % 2 ^ 64 * 2 ^ 256 + seq % 2 ^ 64 * 2 ^ 320)

/-- Writes an error record and raises event 10 (R395, R396). -/
def State.writeRecord (s : State) (e : ErrorInfo) : State :=
  let seq := s.hours.loghead
  let s := { s with hours := { s.hours with log := s.hours.log.insert (seq % 256) (e.bits s.ns seq), loghead := seq + 1 } }
  s.raiseEvent 10 e.ctx [seq, e.cls, e.action]

/-- An error has been detected: its record is written behind those of the errors detected before it (R396). -/
def State.recordError (s : State) (e : ErrorInfo) : State :=
  if s.hours.contained.isEmpty then s.writeRecord e else { s with hours := { s.hours with contained := s.hours.contained ++ [.record e] } }

/-- The records that wait for nothing any more are written, in the order of detection (R396). -/
def State.flushRecords (s : State) : State :=
  let ready := s.hours.contained.takeWhile (fun d => match d with
    | .record _ => true
    | .consumed .. => false)
  ready.foldl (fun s d => match d with
    | .record e => s.writeRecord e
    | .consumed .. => s) { s with hours := { s.hours with contained := s.hours.contained.drop ready.length } }

/-- DIE and INDEX of an error at a word of a unit, by the core that met it: the core's own arrays, the bank, slice or channel of the word; the I/O die
of a second-tier word is left open. -/
def State.errorPlace (s : State) (unit core place : Nat) : Nat × Nat :=
  match unit with
  | 1 | 2 | 3 => (dieOf core, core % Config.coresPerDie)
  | 4 => (dieOf core, s.bankOf (dieOf core) (place / 32))
  | 5 =>
    let die := ((s.owner (place / 32)).map (·.1)).getD (dieOf core)
    (die, s.dieSlice die (8 * place) % 32)
  | 7 => (stackDie (8 * place), place / 512 % 12 % 3 * 32 + Config.hbmChannel (8 * place) % 32)
  | _ => (4 + Config.freeChoice s.tick place % 2, 0)

/-- Adds to a telemetry counter, which saturates (R413). -/
def State.count (s : State) (offset n : Nat) : State :=
  { s with hours := { s.hours with telemetry := s.hours.telemetry.insert offset (min (Table.get 0 s.hours.telemetry offset + n) (2 ^ 64 - 1)) } }

/-- Counts a corrected error of a unit (R413). -/
def State.countCorrected (s : State) (unit : Nat) : State := s.count (8 * unit) 1

/-- Counts an uncorrectable error of a unit (R413). -/
def State.countUncorrected (s : State) (unit : Nat) : State := s.count (0x80 + 8 * unit) 1

end Sys2Proof.Machine
end

