-- ==== Sys2Proof/Machine/Freeze.lean ====
section
/-!
DEFINITION. Freeze: the region sequencer (R342 to R344) as operations, and its steps FREEZE_DRAIN_END, PEER_THAW_ACK,
THAWLIMIT_EXPIRY and THAW_COLLECTION_END.
-/

namespace Sys2Proof.Machine

/-! ### Region entries -/

/-- A region entry of a context. -/
def State.region (s : State) (ctx idx : Nat) : Region := Table.get Region.reset (s.ctx ctx).regions idx

/-- Writes a region entry; one that is as after reset is not listed. -/
def State.setRegion (s : State) (ctx idx : Nat) (r : Region) : State :=
  s.modCtx ctx (fun k => { k with regions := Table.put Region.reset k.regions idx r })

/-- The virtual range of an entry: first address and end. -/
def Region.range (r : Region) : Nat × Nat := (r.base * 2 ^ 16, (r.base + r.size) * 2 ^ 16)

/-- The tile-store lines of a die that an entry names through the aperture (R209, R331). -/
def State.apertureLine (s : State) (ctx : Nat) (r : Region) (die line : Nat) : Bool :=
  let g := s.grant ctx die
  decide (g.1 ≤ line * 256) && decide (line * 256 < g.1 + g.2) &&
    (let va := apertureAddr die (line * 256 - g.1); decide (r.range.1 ≤ va) && decide (va < r.range.2))

/-- Resolves the counted and Spent lines of a range (R342, step 2). -/
def State.resolveRange (s : State) (ctx : Nat) (r : Region) : State :=
  s.resolveWhere true (fun d line _ => s.apertureLine ctx r d line)
    (fun _ line _ => (List.range 4).any (fun i => s.inRange ctx r.range.1 r.range.2 (4 * line + i)))

/-- Every die drains its Dirty sectors of a range and drops its Clean copies not homed on it (R342, step 3). -/
def State.drainRange (s : State) (ctx : Nat) (r : Region) : State :=
  let p : SectorTest := fun k _ => s.inRange ctx r.range.1 r.range.2 k
  (s.drainAll p).invalidateAll p

/-! ### Who asked (R192, R330) -/

/-- A mailbox operation ends (R330): RESULT, BUSY cleared and event 4, to the owner or for a free context to the session that
asked. -/
def State.endBox (s : State) (result : Nat) : State :=
  let b := s.box
  let s := { s with box := { b with busy := false, begun := false, result := result } }
  match s.ownerSession b.ctx with
  | some n => if (s.ctx b.ctx).state = .free then s.eventTo b.session 4 b.ctx [b.op, result] else s.eventTo n 4 b.ctx [b.op, result]
  | none => s.eventTo b.session 4 b.ctx [b.op, result]

/-- Whether a task still has a team in a record. -/
def State.teamHere (s : State) (core tr task : Nat) : Bool := ((s.team core tr).map (fun t => t.ids.task == task)).getD false

/-- Whether the team that asked still holds its record (R192, R194, R344). -/
def State.askerHere (s : State) (core tr task cluster : Nat) : Bool :=
  ((s.team core tr).map (fun t => t.ids.task == task && t.ids.cluster == cluster)).getD false

/-- Completion of a FREEZE or THAW: an arrival, or the end of the mailbox operation. -/
def State.askerDone (s : State) : Asker → State
  | .team core tr bar task cluster => if s.askerHere core tr task cluster then (s.barArrive core tr bar false).1 else s
  | .mailbox => s.endBox 0

/-- Failure of a FREEZE or THAW: an error completion (R172), or RESULT 2. -/
def State.askerFails (s : State) : Asker → State
  | .team core tr bar task cluster => if s.askerHere core tr task cluster then s.barError core tr bar else s
  | .mailbox => s.endBox 2

/-! ### The sequencer's table (R342) -/

/-- Peers that may hold replicas (R328, R343). -/
def Ctx.peerList (k : Ctx) : List Nat := (List.range 16).filter (fun j => k.peers.getLsbD j)

/-- A thaw begins: FCOUNT 0, THAWING 1, and a collection message to every registered peer (R343). -/
def State.beginThaw (s : State) (ctx idx : Nat) (r : Region) (a : Asker) : State :=
  let ps := (s.ctx ctx).peerList
  let s := s.setRegion ctx idx (r.change (fun r => { r with fcount := 0, thawing := true, owes := [a], peersLeft := ps, since := s.ns }))
  { s with host := { s.host with netOut := s.host.netOut ++ ps.map (fun j => .collect ctx j idx) } }

/-- One event at an entry, by the table of R342. A FREEZE that waits for its team's commands is held (R192). -/
def State.seqApply (s : State) (ctx idx : Nat) (q : FreezeReq) : State :=
  let r := s.region ctx idx
  let hold := s.setRegion ctx idx { r with held := r.held ++ [q] }
  if !r.valid then s.askerFails q.asker
  else if r.draining then
    if q.thaw then hold
    else if 255 ≤ r.fcount then s.askerFails q.asker
    else s.setRegion ctx idx { r with fcount := r.fcount + 1, owes := r.owes ++ [q.asker] }
  else if r.thawing then
    if q.thaw then s.askerFails q.asker else hold
  else if r.fcount = 0 then
    if q.thaw then s.askerFails q.asker
    else if !q.awaits.isEmpty then hold
    else s.setRegion ctx idx (r.change (fun r => { r with fcount := 1, draining := true, owes := [q.asker] }))
  else if q.thaw then
    if r.fcount = 1 then s.beginThaw ctx idx r q.asker
    else (s.setRegion ctx idx { r with fcount := r.fcount - 1 }).askerDone q.asker
  else if 255 ≤ r.fcount then s.askerFails q.asker
  else (s.setRegion ctx idx { r with fcount := r.fcount + 1 }).askerDone q.asker

/-- Applies the events that an entry holds, in order. -/
def State.pump (s : State) (ctx idx : Nat) : State :=
  let r := s.region ctx idx
  r.held.foldl (fun s q => s.seqApply ctx idx q) (s.setRegion ctx idx { r with held := [] })

/-- A command of a team has ended: the FREEZEs that wait for it count it (R192). -/
def State.commandEnded (s : State) (core tr seq ctx : Nat) : State :=
  let hit := fun (q : FreezeReq) => match q.asker with
    | .team c r _ _ _ => c == core && r == tr && q.awaits.contains seq
    | .mailbox => false
  let idxs := ((s.ctx ctx).regions.filter (fun e => e.2.held.any hit)).map (·.1)
  idxs.foldl (fun s i =>
    let r := s.region ctx i
    (s.setRegion ctx i { r with held := r.held.map (fun q => if hit q then { q with awaits := q.awaits.filter (· != seq) } else q) }).pump ctx i) s

/-! ### Steps -/

/-- The arrivals that an entry owes are delivered. -/
def State.payOwed (s : State) (ctx idx : Nat) : State :=
  let r := s.region ctx idx
  r.owes.foldl State.askerDone (s.setRegion ctx idx { r with owes := [] })

/-- FREEZE_DRAIN_END: steps A end, once every die has applied the change and what is to drain can drain (R339, R398); owed arrivals are delivered and
held events applied (R342). -/
def execFreezeDrainEnd (ctx idx : Nat) (s : State) : Host.Outcome State Fault Refusal :=
  let r := s.region ctx idx
  let done := s.resolveRange ctx r
  if !r.draining || !done.drainable (fun k _ => s.inRange ctx r.range.1 r.range.2 k) (List.range Config.dies) then .next s
  else
    let s := done.drainRange ctx r
    .next (((s.setRegion ctx idx { (s.region ctx idx).applied with draining := false }).payOwed ctx idx).pump ctx idx)

/-- PEER_THAW_ACK: a peer's replicas are gone (R343). -/
def execPeerThawAck (ctx idx peer : Nat) (s : State) : Host.Outcome State Fault Refusal :=
  let r := s.region ctx idx
  .next (s.setRegion ctx idx { r with peersLeft := r.peersLeft.filter (· != peer) })

/-- THAWLIMIT_EXPIRY: the peers that have not acknowledged within THAWLIMIT ms leave PEERS (R343). -/
def execThawlimitExpiry (ctx idx : Nat) (s : State) : Host.Outcome State Fault Refusal :=
  let r := s.region ctx idx
  if !r.thawing || r.peersLeft.isEmpty || decide (s.ns < r.since + s.sched.thawlimit * 1000000) then .next s
  else
    let s := s.modCtx ctx (fun k => { k with peers := r.peersLeft.foldl (fun m j => m &&& ~~~ (1#16 <<< j)) k.peers,
                                             cut := r.peersLeft.foldl (fun m j => m ||| (1#16 <<< j)) k.cut })
    let s := s.setRegion ctx idx { r with peersLeft := [] }
    .next (r.peersLeft.foldl (fun s j => s.raiseEvent 8 ctx [j]) s)

/-- THAW_COLLECTION_END: every die has dropped its replicas of the bytes that no other entry keeps FROZEN, and every peer has
acknowledged; the entry leaves THAWING (R342, R343). -/
def execThawCollectionEnd (ctx idx : Nat) (s : State) : Host.Outcome State Fault Refusal :=
  let r := s.region ctx idx
  if !r.thawing || !r.peersLeft.isEmpty then .next s
  else
    let kept := fun (x : Sector) => match (s.ctx ctx).effective x.va with
      | .frozen _ => true
      | _ => false
    let s := s.invalidateAll (fun k x => s.inRange ctx r.range.1 r.range.2 k && !kept x)
    .next (((s.setRegion ctx idx (r.change (fun r => { r with thawing := false }))).payOwed ctx idx).pump ctx idx)

end Sys2Proof.Machine
end

