-- ==== Sys2Proof/Machine/Sync.lean ====
section
/-!
DEFINITION. Sync: the major SYNC (R164, R168 to R185), but for the locks, and the steps that end its waits:
BARRIER_WAITER_WAKE, CBAR_ARRIVAL, COURSE_COMPLETION's wake and RING_CLOSED.
-/

namespace Sys2Proof.Machine

/-! ### Shared operations -/

/-- Completes a SYNC instruction: each acting lane writes what `out` gives and blocks where `wait` says so (R168). -/
def finishSync (i : Instr) (s : State) (is : Issue) (out : LaneCtx → LaneOut) (wait : LaneCtx → Option Wait) :
    Host.Outcome State Fault Refusal :=
  .next (complete s is.t (is.lanes.map (fun c =>
    if onEl c.m.guard 1 0 then
      let th := c.th.finish i is.t s.tick none (out c)
      (c.lane, match wait c with
        | some w => { th with status := .wait w }
        | none => th)
    else (c.lane, c.th.finish i is.t s.tick none LaneOut.none))) 1)

/-- No register written and no wait. -/
def quiet (i : Instr) (s : State) (is : Issue) : Host.Outcome State Fault Refusal :=
  finishSync i s is (fun _ => LaneOut.none) (fun _ => none)

/-- An instruction that acts once, with the lowest acting lane's operands (R169); none acts when the guard is false in
every lane. -/
def actOnce (i : Instr) (s : State) (is : Issue) (f : LaneCtx → Host.Outcome State Fault Refusal) : Host.Outcome State Fault Refusal :=
  match is.acting with
  | [] => quiet i s is
  | c :: _ => f c

/-- An arrival (R248): every near access of an arriving lane is performed before it. -/
def arriving (s : State) (is : Issue) (f : Unit → Host.Outcome State Fault Refusal) : Host.Outcome State Fault Refusal :=
  if is.acting.any (fun c => s.outstanding is.t.core is.t.tr is.t.grp c.lane) then stall s is.t.core else f ()

/-- What a lane's value table gives. -/
def valueOf (vs : List (Nat × Nat)) (lane : Nat) : Word := BitVec.ofNat 64 (((vs.find? (·.1 = lane)).map (·.2)).getD 0)

/-- The barrier that BWAIT and BQRY name (R176): the team's own, or team 0's with CLU. -/
def barOf (s : State) (is : Issue) (clu : Bool) (n : Nat) : Option Barrier :=
  let p := if clu then is.team.leader is.t.core is.t.tr else (is.t.core, is.t.tr)
  s.bar p.1 p.2 n

/-- A wait on a barrier phase (R176): the predicate at once, or a block. -/
def phaseWait (s : State) (is : Issue) (clu : Bool) (dst bar phase : Nat) : LaneOut × Option Wait :=
  match (barOf s is clu bar).bind (·.waitValue phase) with
  | some v => (LaneOut.pred dst v, none)
  | none => (LaneOut.none, some (.barrier clu bar phase dst))

/-- The ring that an SR instruction names (R182); the prologue has taken the trap of an unset one. -/
def withRing (i : Instr) (s : State) (is : Issue) (r : BitVec 2) (f : Ring → Host.Outcome State Fault Refusal) :
    Host.Outcome State Fault Refusal :=
  match is.acting, is.team.rings.find r.toNat with
  | _ :: _, some q => f q
  | _, _ => quiet i s is

/-- The convergence register that SIGN and CVWAIT name (R185); the prologue has taken the trap of an unset one. -/
def withCv (i : Instr) (s : State) (is : Issue) (c : BitVec 3) (f : Cv → Host.Outcome State Fault Refusal) :
    Host.Outcome State Fault Refusal :=
  match is.acting, is.team.cvs.find c.toNat with
  | _ :: _, some v => f v
  | _, _ => quiet i s is

/-- The barrier of a ring on which a lane acts (R182): of its own stage; `off` is 0 for a full barrier and 1 for an empty one. -/
def Ring.laneBar (q : Ring) (a : BitVec 7) (off : Nat) (c : LaneCtx) : Nat := q.bF + 2 * q.stage (c.th.rd a) + off

/-- Arrivals of SRPUT and SRREL (R182): each acting lane, or the lowest with ONE, on the barrier of its own stage; every expectation comes
before every arrival (R173). -/
def ringArrivals (s : State) (is : Issue) (q : Ring) (a : BitVec 7) (one : Bool) (off : Nat) (bytes : Option (BitVec 7)) : State :=
  let cs := if one then is.acting.take 1 else is.acting
  let s := match bytes with
    | some b => cs.foldl (fun s c => s.barEvent is.t.core is.t.tr (q.laneBar a off c) (·.expect (c.th.rd b).toNat)) s
    | none => s
  cs.foldl (fun s c => (s.barArrive is.t.core is.t.tr (q.laneBar a off c) false).1) s

/-! ### What a wait finds -/

/-- Whether the case holds that a blocked thread of a team's group waits for, with what its predicate receives (R176, R180, R185). A thread
in SIGN goes on once it has signed the next phase. -/
def State.waitMet (s : State) (core tr : Nat) (t : Team) (g : Group) (w : Wait) : Option Byte :=
  match w with
  | .barrier clu bar phase _ =>
    let p := if clu then t.leader core tr else (core, tr)
    (s.bar p.1 p.2 bar).bind (·.waitValue phase)
  | .counter k n => g.counterMet k n
  | .cvwait cv q => (t.cvs.find cv).bind (fun v => if q < t.cvDone cv v then some 0 else none)
  | .sign _ | .course _ | .matrix _ => none

/-- Remembers for the blocked threads of a cluster's teams which waits have ended, before a barrier or a convergence register starts anew
(R176, R181, R184). -/
def State.latchCluster (s : State) (core tr : Nat) (t : Team) : State :=
  (((core, tr) :: t.ids.peers).eraseDups).foldl (fun s p => s.modTeam p.1 p.2 (fun m => m.latch (fun g w => s.waitMet p.1 p.2 m g w))) s

/-! ### FENCE (R164) -/

/-- The loads and ATOMs of a lane that have not landed (R164): those with a result to come, and those that no bank has performed yet. -/
def State.openLoads (s : State) (t : Turn) (lane : Nat) (th : Thread) : List Nat :=
  (th.pend.filter (fun p => p.near && !p.landed)).map (·.id) ++
    ((s.openNear t.core t.tr t.grp lane).filter (fun e => match e.2.2 with
      | .store .. => false
      | _ => true)).map (·.1)

/-- FENCE. -/
def execFence (sc : BitVec 3) (o : BitVec 2) (s : State) : Host.Outcome State Fault Refusal :=
  issue (.fence sc o) s (fun s is =>
    .next (complete s is.t (is.lanes.map (fun c =>
      let th := c.th.issueNear (.fence sc o) is.t none
      let acq := o.toNat == 1 || o.toNat == 3
      let rel := (o.toNat == 2 || o.toNat == 3) && decide (1 ≤ sc.toNat)
      if onEl c.m.guard 1 0 then
        (c.lane, { th with fences := if acq then th.fences ++ s.openLoads is.t c.lane th else th.fences, relFence := th.relFence || rel })
      else (c.lane, th))) 1))

/-! ### Barriers (R174 to R178) -/

/-- BINIT. -/
def execBinit (n : BitVec 4) (a : BitVec 7) (s : State) : Host.Outcome State Fault Refusal :=
  issue (.binit n a) s (fun s is => actOnce (.binit n a) s is (fun c =>
    let v := (c.th.rd a).toNat
    quiet (.binit n a) (s.barEvent is.t.core is.t.tr n.toNat (·.init (v % 2 ^ 16) (v / 2 ^ 16 % 2 ^ 32))) is))

/-- BARR. -/
def execBarr (d : BitVec 7) (e : BitVec 1) (n : BitVec 4) (s : State) : Host.Outcome State Fault Refusal :=
  issue (.barr d e n) s (fun s is => arriving s is (fun _ =>
    let r := s.barArrivals is.t.core is.t.tr n.toNat false (e == 1#1) is.actingLanes (fun _ b => b)
    finishSync (.barr d e n) r.1 is (fun c => LaneOut.reg (c.th.ix d.toNat) (valueOf r.2 c.lane)) (fun _ => none)))

/-- BEXP: every lane's expectation comes before every arrival (R173, R175). -/
def execBexp (one arr : BitVec 1) (n : BitVec 4) (a : BitVec 7) (s : State) : Host.Outcome State Fault Refusal :=
  issue (.bexp one arr n a) s (fun s is =>
    let cs := if one == 1#1 then is.acting.take 1 else is.acting
    let s1 := cs.foldl (fun s c => s.barEvent is.t.core is.t.tr n.toNat (·.expect (c.th.rd a).toNat)) s
    if arr == 1#1 then
      arriving s is (fun _ => quiet (.bexp one arr n a) (cs.foldl (fun s _ => (s.barArrive is.t.core is.t.tr n.toNat false).1) s1) is)
    else quiet (.bexp one arr n a) s1 is)

/-- BWAIT. -/
def execBwait (p : BitVec 4) (a : BitVec 7) (clu : BitVec 1) (n : BitVec 4) (s : State) : Host.Outcome State Fault Refusal :=
  issue (.bwait p a clu n) s (fun s is =>
    let w := fun (c : LaneCtx) => phaseWait s is (clu == 1#1) p.toNat n.toNat ((c.th.rd a).toNat % 2 ^ 32)
    finishSync (.bwait p a clu n) s is (fun c => (w c).1) (fun c => (w c).2))

/-- BQRY. -/
def execBqry (d : BitVec 7) (clu : BitVec 1) (sel : BitVec 2) (n : BitVec 4) (s : State) : Host.Outcome State Fault Refusal :=
  issue (.bqry d clu sel n) s (fun s is =>
    let v := ((barOf s is (clu == 1#1) n.toNat).map (·.snapshot sel.toNat)).getD 0
    finishSync (.bqry d clu sel n) s is (fun c => LaneOut.reg (c.th.ix d.toNat) v) (fun _ => none))

/-- A register written when an arrival through CBAR is counted (R178): every read of it waits, as does an instruction whose guard keeps a part
of it. -/
def Pending.ofCbar (id reg : Nat) : Pending :=
  { id := id, regs := [(reg, none)], preds := [], win := 0, inRun := true, awaited := [], awaitAll := true, landed := false,
    near := false, matrix := false, hold := false, fp := false, fixed := true }

/-- CBAR. -/
def execCbar (d : BitVec 7) (e : BitVec 1) (n : BitVec 4) (s : State) : Host.Outcome State Fault Refusal :=
  issue (.cbar d e n) s (fun s is =>
    if is.acting.isEmpty then quiet (.cbar d e n) s is
    else arriving s is (fun _ =>
      let p := is.team.leader is.t.core is.t.tr
      let arrival : CbarArrival := { fromCore := is.t.core, fromRec := is.t.tr, toRec := p.2, bar := n.toNat, grp := is.t.grp,
                                     lanes := is.actingLanes, one := e == 1#1, pend := s.tick }
      .next (complete (s.modCore p.1 (fun k => { k with cbars := k.cbars ++ [arrival] })) is.t (is.lanes.map (fun c =>
        (c.lane, c.th.issueNear (.cbar d e n) is.t
          (if onEl c.m.guard 1 0 then some (Pending.ofCbar s.tick (c.th.ix d.toNat)) else none)))) 1)))

/-- Gives every unknown register of a pending write a value. -/
def Thread.resolveAll (th : Thread) (id : Nat) (v : Word) : Thread :=
  { th with pend := th.pend.map (fun p =>
      if p.id = id then { p with regs := p.regs.map (fun e => (e.1, some (e.2.getD v))) } else p) }

/-- CBAR_ARRIVAL: the oldest arrivals on their way to a team's barriers are counted, at cluster scope. -/
def execCbarArrival (core tr : Nat) (s : State) : Host.Outcome State Fault Refusal :=
  match (s.core core).cbars.find? (fun q => q.toRec == tr) with
  | none => .next s
  | some q =>
    let s := s.modCore core (fun k => { k with cbars := k.cbars.erase q })
    let r := s.barArrivals core tr q.bar true q.one q.lanes (fun _ b => b)
    .next (r.2.foldl (fun s e => s.modThread q.fromCore q.fromRec q.grp e.1 (fun th => th.resolveAll q.pend (BitVec.ofNat 64 e.2))) r.1)

/-! ### Courses and counter waits (R179, R180) -/

/-- COURSE. -/
def execCourse (p : BitVec 4) (s : State) : Host.Outcome State Fault Refusal :=
  issue (.course p) s (fun s is => arriving s is (fun _ =>
    finishSync (.course p) s is (fun _ => LaneOut.none) (fun _ => some (.course p.toNat))))

/-- KWAIT. -/
def execKwait (n : BitVec 7) (m c : BitVec 2) (s : State) : Host.Outcome State Fault Refusal :=
  issue (.kwait n m c) s (fun s is =>
    let lim := m.toNat * 128 + n.toNat
    finishSync (.kwait n m c) s is (fun _ => LaneOut.none) (fun _ =>
      if is.grp.counters.getD c.toNat 0 ≤ lim then none else some (.counter c.toNat lim)))

/-! ### Rings (R181 to R183) -/

/-- SRINIT. -/
def execSrinit (f : BitVec 4) (r : BitVec 2) (a : BitVec 7) (o : BitVec 2) (n : BitVec 3) (s : State) :
    Host.Outcome State Fault Refusal :=
  issue (.srinit f r a o n) s (fun s is => actOnce (.srinit f r a o n) s is (fun c =>
    let v := (c.th.rd a).toNat
    let full := v % 2 ^ 16
    let empty := v / 2 ^ 16 % 2 ^ 16
    let expb := v / 2 ^ 32
    let stages := n.toNat + 2
    let set := fun (bars : List Barrier) (k : Nat) =>
      (bars.modify (f.toNat + 2 * k) (·.ringInit full expb)).modify (f.toNat + 2 * k + 1) (·.ringInit empty 0)
    let s := (s.latchCluster is.t.core is.t.tr is.team).modTeam is.t.core is.t.tr (fun t =>
      ({ t with rings := t.rings.insert r.toNat { n := stages, bF := f.toNat, role := o.toNat, st := .opened, awaits := none },
                bars := (List.range stages).foldl set t.bars }).closeRings)
    quiet (.srinit f r a o n) s is))

/-- SRACQ. -/
def execSracq (p : BitVec 4) (a : BitVec 7) (r : BitVec 2) (s : State) : Host.Outcome State Fault Refusal :=
  issue (.sracq p a r) s (fun s is => withRing (.sracq p a r) s is r (fun q =>
    let w := fun (c : LaneCtx) =>
      let k := c.th.rd a
      if q.st == .closed then (LaneOut.pred p.toNat 0x00, none)
      else if q.lap k = 0 then (LaneOut.pred p.toNat 0xFF, none)
      else phaseWait s is false p.toNat (q.bF + 2 * q.stage k + 1) (q.lap k - 1)
    finishSync (.sracq p a r) s is (fun c => (w c).1) (fun c => (w c).2)))

/-- SRPUT. -/
def execSrput (x e : BitVec 1) (r : BitVec 2) (a b : BitVec 7) (s : State) : Host.Outcome State Fault Refusal :=
  issue (.srput x e r a b) s (fun s is => withRing (.srput x e r a b) s is r (fun q =>
    arriving s is (fun _ => quiet (.srput x e r a b) (ringArrivals s is q a (e == 1#1) 0 (if x == 1#1 then some b else none)) is)))

/-- SRGET. -/
def execSrget (p : BitVec 4) (a : BitVec 7) (r : BitVec 2) (s : State) : Host.Outcome State Fault Refusal :=
  issue (.srget p a r) s (fun s is => withRing (.srget p a r) s is r (fun q =>
    let w := fun (c : LaneCtx) => phaseWait s is false p.toNat (q.bF + 2 * q.stage (c.th.rd a)) (q.lap (c.th.rd a))
    finishSync (.srget p a r) s is (fun c => (w c).1) (fun c => (w c).2)))

/-- SRREL. -/
def execSrrel (e : BitVec 1) (r : BitVec 2) (a : BitVec 7) (s : State) : Host.Outcome State Fault Refusal :=
  issue (.srrel e r a) s (fun s is => withRing (.srrel e r a) s is r (fun q =>
    arriving s is (fun _ => quiet (.srrel e r a) (ringArrivals s is q a (e == 1#1) 1 none) is)))

/-- SRCLOSE. -/
def execSrclose (r : BitVec 2) (s : State) : Host.Outcome State Fault Refusal :=
  issue (.srclose r) s (fun s is => withRing (.srclose r) s is r (fun q =>
    if q.st != .opened then quiet (.srclose r) s is
    else
      let seqs := ((s.core is.t.core).hod.flight.filter (fun f =>
        !f.done && f.queue == 0 && f.tr == is.t.tr && q.bars.contains f.bar)).map (·.seq)
      quiet (.srclose r) (s.modTeam is.t.core is.t.tr (fun t =>
        { t with rings := t.rings.insert r.toNat { q with st := .closing, awaits := some seqs } })) is))

/-- RING_CLOSED: a closing ring whose commands have all ended becomes CLOSED, and so do its full barriers. -/
def execRingClosed (core tr ring : Nat) (s : State) : Host.Outcome State Fault Refusal :=
  match s.team core tr with
  | none => .next s
  | some t =>
    match t.rings.find ring with
    | none => .next s
    | some q =>
      if q.st != .closing || (s.core core).hod.flight.any (t.keepsRing tr q) then .next s
      else
        .next (s.setTeam core tr { t with
          rings := t.rings.insert ring { q with st := .closed },
          bars := (List.range q.n).foldl (fun bs k => bs.modify (q.bF + 2 * k) (fun b => { b with closed := true })) t.bars })

/-! ### Convergence (R184, R185) -/

/-- CVSET. -/
def execCvset (a : BitVec 7) (c : BitVec 3) (s : State) : Host.Outcome State Fault Refusal :=
  issue (.cvset a c) s (fun s is => actOnce (.cvset a c) s is (fun l =>
    let ms := maskGroups (l.th.rd a)
    let cv := c.toNat
    let forget := fun (th : Thread) => { th with signed := th.signed.erase cv }
    let s := (s.latchCluster is.t.core is.t.tr is.team).modTeam is.t.core is.t.tr (fun t =>
      { t with cvs := t.cvs.insert cv { members := ms, q := 0, ready := none },
               groups := t.groups.map (fun g => { g with threads := g.threads.map forget }) })
    .next (complete s is.t (is.lanes.map (fun x => (x.lane, forget (x.th.issueNear (.cvset a c) is.t none)))) 1)))

/-- SIGN. -/
def execSign (c : BitVec 3) (s : State) : Host.Outcome State Fault Refusal :=
  issue (.sign c) s (fun s is => withCv (.sign c) s is c (fun v =>
    let cv := c.toNat
    let done := is.team.cvDone cv v
    let s' := complete s is.t (is.lanes.map (fun l =>
      let th := l.th.issueNear (.sign c) is.t none
      if !onEl l.m.guard 1 0 then (l.lane, th)
      else if done < th.signedTo cv then (l.lane, { th with status := .wait (.sign cv) })
      else (l.lane, th.sign cv (max v.q (th.signedTo cv))))) 1
    .next (s'.modTeam is.t.core is.t.tr (·.cvAdvance cv))))

/-- CVWAIT. -/
def execCvwait (c : BitVec 3) (s : State) : Host.Outcome State Fault Refusal :=
  issue (.cvwait c) s (fun s is => withCv (.cvwait c) s is c (fun v =>
    finishSync (.cvwait c) s is (fun _ => LaneOut.none) (fun l =>
      let k := l.th.signedTo c.toNat
      if k ≤ is.team.cvDone c.toNat v then none else some (.cvwait c.toNat (k - 1)))))

/-! ### Waking (R11, R173, R176) -/

/-- Ends the wait of one blocked thread whose case holds or has held (R176, R180, R185); courses and matrix operations end in their own
steps. -/
def State.wakeLane (s : State) (core tr grp : Nat) (t : Team) (g : Group) (lane : Nat) : State :=
  match g.threads[lane]? with
  | none => s
  | some th =>
    match th.status with
    | .wait w =>
      match th.met.or (s.waitMet core tr t g w) with
      | none => s
      | some v => s.modThread core tr grp lane (fun th => (match w with
          | .barrier _ _ _ dst => th.setPred dst v
          | _ => th).wake g.turns)
    | _ => s

/-- BARRIER_WAITER_WAKE: the threads of a group whose waits have ended become runnable. -/
def execBarrierWaiterWake (core tr grp : Nat) (s : State) : Host.Outcome State Fault Refusal :=
  match s.team core tr with
  | none => .next s
  | some t =>
    match t.groups[grp]? with
    | none => .next s
    | some g => .next ((List.range g.threads.length).foldl (fun s l => s.wakeLane core tr grp t g l) s)

end Sys2Proof.Machine
end

