-- ==== Sys2Proof/Machine/Command.lean ====
section
/-!
DEFINITION. Command: the major CMD (R188 to R193): CPOST, TPOST, FREEZE, THAW, RGQRY and GWQRY.
-/

namespace Sys2Proof.Machine

/-! ### Packets from registers -/

/-- The 64 bytes of eight registers from a field on, the first lowest (R189). -/
def Thread.eight (th : Thread) (a : BitVec 7) : BitVec 512 :=
  BitVec.ofNat 512 ((List.range 8).foldr (fun k acc => (th.reg (th.ix (a.toNat + k))).toNat + 2 ^ 64 * acc) 0)

/-- Word k of a packet (R223). -/
def pktWord (p : BitVec 512) (k : Nat) : Nat := (p.extractLsb' (32 * k) 32).toNat

/-- Bits [lo + w - 1 : lo] of word k of a packet. -/
def pktField (p : BitVec 512) (k lo w : Nat) : Nat := bitsOf (pktWord p k) lo w

/-- CLASS of a packet (R223). -/
def pktClass (p : BitVec 512) : Nat := pktField p 0 29 2

/-- Whether a packet makes its CPOST a commit point (R191). -/
def pktCommits (p : BitVec 512) : Bool :=
  let op := pktField p 0 0 5
  let redop := pktField p 0 19 4
  let dst := pktField p 1 16 3
  dst == 4 || ((dst == 0 || dst == 2) && (op == 9 || op == 4 || (op == 1 && decide (1 ≤ redop) && decide (redop ≤ 6))))

/-! ### CPOST (R189) -/

/-- Whether the counters have room for packets of these classes (R27). -/
def Group.countRoom (g : Group) (ps : List (BitVec 512)) : Bool :=
  (List.range 4).all (fun k => decide (g.counters.getD k 0 + (ps.filter (fun p => pktClass p == k)).length ≤ 256))

/-- Appends one packet to queue 0: it takes the hod's next sequence number (R189, R218). -/
def State.post (s : State) (t : Turn) (team : Team) (p : BitVec 512) : State :=
  let id := commandPost (s.core t.core).hod.seq
  let s := s.modGroup t.core t.tr t.grp (fun g => if pktClass p = 3 then g.post id else g.countUp (pktClass p))
  s.modHod t.core (fun h =>
    { h with seq := h.seq + 1,
             q0 := h.q0 ++ [{ pkt := p, tr := t.tr, grp := t.grp, task := team.ids.task, ctx := team.ids.ctx, seq := h.seq }],
             flight := h.flight ++ [{ queue := 0, ring := 0, ctx := team.ids.ctx, seq := h.seq, tr := t.tr, grp := t.grp, task := team.ids.task, cls := pktClass p,
                                      bar := pktField p 0 24 4, done := false }] })

/-- CPOST: the hod sees every store that its threads issued before it (R189, R248). -/
def execCpost (d a : BitVec 7) (l : BitVec 4) (s : State) : Host.Outcome State Fault Refusal :=
  issue (.cpost d a l) s (fun s is => arriving s is (fun _ =>
    let ps := is.acting.map (fun c => c.th.eight a)
    let h := (s.core is.t.core).hod
    if 128 < h.q0.length + ps.length || !is.grp.countRoom ps then stall s is.t.core
    else
      let seqs := (is.actingLanes.zipIdx).map (fun e => (e.1, h.seq + e.2))
      let s' := if ps.any pktCommits then s.commitTask is.team.ids.task else s
      let s' := ps.foldl (fun s p => s.post is.t is.team p) s'
      .next (complete s' is.t (is.lanes.map (fun c => (c.lane, c.th.finish (.cpost d a l) is.t s.tick (some l.toNat)
        (if onEl c.m.guard 1 0 then LaneOut.reg (c.th.ix d.toNat) (valueOf seqs c.lane) else LaneOut.none)))) (max 1 ps.length))))

/-! ### TPOST (R190, R316) -/

/-- Sequence numbers of a group's commands that have not ended. -/
def Hod.openOf (h : Hod) (tr grp : Nat) : List Nat := (h.flight.filter (fun f => !f.done && f.queue == 0 && f.tr == tr && f.grp == grp)).map (·.seq)

/-- Sequence numbers of a team's commands that have not ended. -/
def Hod.openOfTeam (h : Hod) (tr : Nat) : List Nat := (h.flight.filter (fun f => !f.done && f.queue == 0 && f.tr == tr)).map (·.seq)

/-- Whether a core's record buffer is full (R316). -/
def State.tpostFull (s : State) (core : Nat) : Bool := decide (8 ≤ (s.sched.tposts.filter (fun r => r.core == core && r.waiting)).length)

/-- TPOST. -/
def execTpost (a : BitVec 7) (s : State) : Host.Outcome State Fault Refusal :=
  issue (.tpost a) s (fun s is =>
    if !is.acting.isEmpty && s.tpostFull is.t.core then stall s is.t.core
    else
      let awaits := (s.core is.t.core).hod.openOf is.t.tr is.t.grp
      let rs := is.acting.map (fun c => ({ core := is.t.core, tr := is.t.tr, grp := is.t.grp, task := is.team.ids.task, grid := is.team.ids.grid,
                                           ctx := is.team.ids.ctx, awaits := awaits, data := c.th.eight a, waiting := false } : TPost))
      let s' := if rs.isEmpty then s else (s.commitTask is.team.ids.task).watchRestart is.team.ids.task
      let s' := { s' with sched := { s'.sched with tposts := s'.sched.tposts ++ rs } }
      .next (complete s' is.t (is.lanes.map (fun c => (c.lane, c.th.finish (.tpost a) is.t s.tick none LaneOut.none))) (max 1 rs.length)))

/-! ### FREEZE and THAW (R192) -/

/-- FREEZE or THAW of an entry for a team's barrier: a bad entry index fails (R192). -/
def freezeThaw (i : Instr) (thaw : Bool) (a : BitVec 7) (n : BitVec 4) (s : State) : Host.Outcome State Fault Refusal :=
  issue i s (fun s is => actOnce i s is (fun c =>
    let v := (c.th.rd a).toNat
    let s := s.commitTask is.team.ids.task
    let asker := Asker.team is.t.core is.t.tr n.toNat is.team.ids.task is.team.ids.cluster
    let q : FreezeReq := { thaw := thaw, asker := asker, awaits := if thaw then [] else (s.core is.t.core).hod.openOfTeam is.t.tr }
    quiet i (if 256 ≤ v then s.askerFails asker else s.seqApply is.team.ids.ctx v q) is))

/-- FREEZE. -/
def execFreeze (a : BitVec 7) (n : BitVec 4) (s : State) : Host.Outcome State Fault Refusal := freezeThaw (.freeze a n) false a n s

/-- THAW. -/
def execThaw (a : BitVec 7) (n : BitVec 4) (s : State) : Host.Outcome State Fault Refusal := freezeThaw (.thaw a n) true a n s

/-! ### RGQRY and GWQRY (R193) -/

/-- What RGQRY reports of an address. -/
def Ctx.regionReport (k : Ctx) (va : Nat) : Word :=
  let cs := k.covering va
  match cs with
  | [] => 0
  | (i, r) :: _ =>
    let st := match k.effective va with
      | .shared => (1, 0, 0)
      | .priv _ => (2, r.ownerDie, 0)
      | .frozen n => (3, 0, n)
      | .thawing => (4, 0, 0)
    BitVec.ofNat 64 (st.1 + st.2.1 * 2 ^ 3 + st.2.2 * 2 ^ 8 + i * 2 ^ 16 + min cs.length 255 * 2 ^ 24)

/-- The window that a command acts on, if any: a COPY from space 5, GWBIND or GWFREE (R235). -/
def pktWindow (p : BitVec 512) : Option Nat :=
  let op := pktField p 0 0 5
  if op = 1 ∧ pktField p 1 13 3 = 5 then some (pktField p 3 10 6)
  else if op = 6 ∨ op = 7 then some (pktField p 5 10 6)
  else none

/-- Whether a command of a context on a window of a die is suspended at a fault (R193). -/
def State.windowFault (s : State) (die ctx w : Nat) : Bool :=
  (List.range Config.coresPerDie).any (fun k => (s.core (die * Config.coresPerDie + k)).hod.cmds.any (fun e =>
    e.2.state == .suspended && e.2.ctx == ctx && pktWindow e.2.pkt == some w))

/-- What GWQRY reports of a window. -/
def State.windowReport (s : State) (die ctx w : Nat) : Word :=
  if 64 ≤ w then 0
  else
    let flt := (s.windowFault die ctx w).toNat * 2
    match (s.die die).windows.find w with
    | none => BitVec.ofNat 64 flt
    | some b => if b.ctx != ctx then 0 else BitVec.ofNat 64 (1 + flt + Table.get 0 (s.die die).oor w % 2 ^ 32 * 2 ^ 16)

/-- A query: every acting lane's register takes a snapshot, as a late result (R67, R193). -/
def query (i : Instr) (d a : BitVec 7) (l : BitVec 4) (s : State) (f : State → Issue → Nat → Word) : Host.Outcome State Fault Refusal :=
  issue i s (fun s is =>
    .next (complete s is.t (is.lanes.map (fun c => (c.lane, c.th.finish i is.t s.tick (some l.toNat)
      (if onEl c.m.guard 1 0 then LaneOut.reg (c.th.ix d.toNat) (f s is (c.th.rd a).toNat) else LaneOut.none)))) 1))

/-- RGQRY. -/
def execRgqry (d a : BitVec 7) (l : BitVec 4) (s : State) : Host.Outcome State Fault Refusal :=
  query (.rgqry d a l) d a l s (fun s is va => (s.ctx is.team.ids.ctx).regionReport va)

/-- GWQRY. -/
def execGwqry (d a : BitVec 7) (l : BitVec 4) (s : State) : Host.Outcome State Fault Refusal :=
  query (.gwqry d a l) d a l s (fun s is w => s.windowReport (dieOf is.t.core) is.team.ids.ctx w)

end Sys2Proof.Machine
end

