-- ==== Sys2Proof/Machine/Convert.lean ====
section
/-!
DEFINITION. Convert: the major CVT (R100 to R104): conversions, block-scaled quantisation and the generator.
-/

namespace Sys2Proof.Machine

/-! ### CVT (R101, R102) -/

/-- Elements of a conversion between two type codes (R101). -/
def cvtCount (s t : BitVec 4) : Nat := 64 / max (typeWidth s) (typeWidth t)

/-- Element k of the source (R101). -/
def cvtSource (p : BitVec 3) (s t : BitVec 4) (x : Word) (k : Nat) : Nat :=
  if typeWidth t ≤ typeWidth s then el (typeWidth s) x k else el (typeWidth s) x (p.toNat * cvtCount s t + k)

/-- First element of the destination (R101). -/
def cvtBase (p : BitVec 3) (s t : BitVec 4) : Nat := if typeWidth t ≤ typeWidth s then p.toNat * cvtCount s t else 0

/-- CVT. -/
def execCvt (d a : BitVec 7) (p : BitVec 3) (s t : BitVec 4) (st : State) : Host.Outcome State Fault Refusal :=
  simd (.cvt d a p s t) st true (fun c =>
    let steps := c.stochastic && cvtRounds s.toNat t.toNat
    let run := formEls steps (fun rnd k => cvtElem (c.m.rounding rnd) s.toNat t.toNat (cvtSource p s t (c.th.rd a) k))
      (activeEls (cvtCount s t) c.m.guard) c.th.seed
    { regs := [(c.th.ix d.toNat, run.into (typeWidth t) (cvtBase p s t) (c.th.rd d))], preds := [], flags := run.flags,
      seed := if steps then some run.seed else none,
      bad := match Fmt.ofCode t.toNat with
        | some T => run.els.any (fun e => T.nonFinite e.2.1)
        | none => false })

/-! ### CVTS (R103) -/

/-- The active elements of a lane, as read. -/
def quantEls (p : BitVec 3) (s t : BitVec 4) (a : BitVec 7) (T : Fmt) (c : LaneCtx) : List (Nat × FVal × FFlags) :=
  (activeEls (cvtCount s t) c.m.guard).map (fun k => (k, T.read c.m.ftz (cvtSource p s t (c.th.rd a) k)))

/-- Block of a lane: 32 consecutive flat elements. -/
def quantBlock (s t : BitVec 4) (lane : Nat) : Nat := lane * cvtCount s t / 32

/-- The larger of a magnitude and an element's magnitude; NaNs and infinities are passed over. -/
def maxMag (m : Nat × Int) (v : FVal) : Nat × Int :=
  match v with
  | .fin _ num exp => if magGt num exp m.1 m.2 then (num, exp) else m
  | _ => m

/-- The scale chosen for a block's active elements, and whether one of them is a NaN. -/
def blockScale (t : BitVec 4) (vs : List FVal) : Nat × Bool :=
  let m := vs.foldl maxMag (0, 0)
  (s12Above m.1 (scaledMax t.toNat) m.2, vs.any (fun v => match v with
    | .nan _ => true
    | _ => false))

/-- The unit of the source format at a quotient (R44; log 13). -/
def quotientUnit (T : Fmt) (num den : Nat) (exp : Int) : Int := max (ilog2 num den exp - T.frac) T.emin

/-- One code (R103): the quotient by the scale, rounded once. -/
def quantCode (T D : Fmt) (m : Rounding) (scale : Nat) (v : FVal × FFlags) : Nat × FFlags :=
  match v.1, s12Value scale with
  | .nan _, _ => (0, v.2)
  | .inf neg, _ => D.round m (.inf neg)
  | .fin neg num exp, some (sn, se) =>
    if sn = 0 ∨ num = 0 then D.round m (.rat neg 0 1 0)
    else D.round { m with srcUnit := some (quotientUnit T num sn (exp - se)) } (.rat neg num sn (exp - se))
  | .fin neg _ _, none => D.round m (.rat neg 0 1 0)

/-- What CVTS gives in one lane, from the elements of its block. -/
def quantLane (d : BitVec 7) (p : BitVec 3) (s t : BitVec 4) (T D : Fmt) (block : List FVal) (vs : List (Nat × FVal × FFlags))
    (c : LaneCtx) : LaneOut :=
  if vs.isEmpty then LaneOut.none
  else
    let sc := blockScale t block
    let run := formEls c.stochastic (fun rnd k =>
      quantCode T D (c.m.rounding rnd) sc.1 (((vs.find? (·.1 = k)).map (·.2)).getD (.nan false, 0))) (vs.map (·.1)) c.th.seed
    { regs := [(c.th.ix d.toNat, run.into (typeWidth t) (cvtBase p s t) (c.th.rd d)),
               (c.th.ix (d.toNat + 1), BitVec.ofNat 64 (if sc.2 then 0xFF0 else sc.1))],
      preds := [], flags := run.flags ||| (if sc.2 then flagNF else 0),
      seed := if c.stochastic then some run.seed else none,
      bad := sc.2 || run.els.any (fun e => D.nonFinite e.2.1) }

/-- CVTS. -/
def execCvts (d a : BitVec 7) (p : BitVec 3) (s t : BitVec 4) (st : State) : Host.Outcome State Fault Refusal :=
  issue (.cvts d a p s t) st (fun st is =>
    let T := (Fmt.ofCode s.toNat).getD .fp32
    let D := (Fmt.ofCode t.toNat).getD .e4m3
    let vals := is.lanes.map (fun c => (c, quantEls p s t a T c))
    commitOuts (.cvts d a p s t) st is true (vals.map (fun e =>
      let block := (vals.filter (fun x => quantBlock s t x.1.lane = quantBlock s t e.1.lane)).flatMap (fun x => x.2.map (·.2.1))
      quantLane d p s t T D block e.2 e.1)))

/-! ### The generator (R104) -/

/-- The constant that a lane's seed is mixed with (R43). -/
def laneSeed (lane : Nat) : Word := BitVec.ofNat 64 lane * 0x9E3779B97F4A7C15

/-- SEED. -/
def execSeed (a : BitVec 7) (st : State) : Host.Outcome State Fault Refusal :=
  simd (.seed a) st false (fun c =>
    if onEl c.m.guard 1 0 then { LaneOut.none with seed := some (c.th.rd a ^^^ laneSeed c.lane) } else LaneOut.none)

/-- RND. -/
def execRnd (d : BitVec 7) (st : State) : Host.Outcome State Fault Refusal :=
  simd (.rnd d) st false (fun c =>
    if onEl c.m.guard 1 0 then
      { LaneOut.reg (c.th.ix d.toNat) (BitVec.ofNat 64 (seedRnd (seedStep c.th.seed))) with seed := some (seedStep c.th.seed) }
    else LaneOut.none)

end Sys2Proof.Machine
end

