-- ==== Sys2Proof/Machine/Packet.lean ====
section
/-!
DEFINITION. Packet: the copy command (R223 to R227, R232): its fields, the checks at acceptance (R224), where its elements lie
(R227, R230), and its nominal bytes (R243).
-/

namespace Sys2Proof.Machine

/-! ### Fields -/

/-- The fields of a packet (R223). -/
structure Packet where
  op : Nat
  ndim : Nat
  srcType : Nat
  dstType : Nat
  round : Nat
  redop : Nat
  sat : Bool
  bar : Nat
  arrive : Bool
  cls : Nat
  scaled : Bool
  fence : Nat
  scope : Nat
  rcnt : Nat
  srcSpace : Nat
  dstSpace : Nat
  consume : Bool
  reserved : Nat
  lap : Nat
  src : Nat
  dst : Nat
  ext : List Nat
  w : List Nat
  deriving DecidableEq, Repr

/-- The fields of 64 bytes; `w` holds W8 to W15. -/
def Packet.of (p : BitVec 512) : Packet :=
  { op := pktField p 0 0 5, ndim := pktField p 0 5 3 + 1, srcType := pktField p 0 8 4, dstType := pktField p 0 12 4,
    round := pktField p 0 16 3, redop := pktField p 0 19 4, sat := pktField p 0 23 1 == 1, bar := pktField p 0 24 4,
    arrive := pktField p 0 28 1 == 1, cls := pktField p 0 29 2, scaled := pktField p 0 31 1 == 1, fence := pktField p 1 0 2,
    scope := pktField p 1 2 3, rcnt := pktField p 1 5 8, srcSpace := pktField p 1 13 3, dstSpace := pktField p 1 16 3,
    consume := pktField p 1 19 1 == 1, reserved := pktField p 1 20 4, lap := pktField p 1 24 8,
    src := pktWord p 2 + pktField p 3 0 16 * 2 ^ 32, dst := pktWord p 4 + pktField p 5 0 16 * 2 ^ 32,
    ext := [pktWord p 6, pktField p 7 0 16, pktField p 3 16 16, pktField p 5 16 16, pktField p 7 16 16],
    w := (List.range 8).map (fun k => pktWord p (8 + k)) }

/-- Word W(8 + k). -/
def Packet.word (p : Packet) (k : Nat) : Nat := p.w.getD k 0

/-- Extent of a dimension. -/
def Packet.extent (p : Packet) (k : Nat) : Nat := p.ext.getD k 1

/-- A source or destination stride of dimension 1 to 4. -/
def Packet.stride (p : Packet) (dest : Bool) (k : Nat) : Int := sgn 32 (p.word ((if dest then 4 else 0) + k - 1))

/-- Element count: the product of the extents (R227). -/
def Packet.count (p : Packet) : Nat := p.ext.foldl (· * ·) 1

/-! ### Types (R227) -/

/-- Size of a type's element in half bytes; 7 is half a byte. -/
def typeHalves (t : Nat) : Nat :=
  match t with
  | 1 | 8 => 16
  | 2 | 9 | 14 => 8
  | 3 | 4 | 10 | 13 => 4
  | 7 => 1
  | _ => 2

/-- Bytes that hold one element; an E2M1 element shares its byte. -/
def typeBytes (t : Nat) : Nat := max 1 (typeHalves t / 2)

/-- The types that carry S12 scales (R230). -/
def scaledType (t : Nat) : Bool := t == 5 || t == 6 || t == 7

/-- Size in bytes of an ATOMIC's element (R227, R238). -/
def atomicBytes (t : Nat) : Nat := if t = 0 then 8 else typeBytes t

/-- REDOP and DST TYPE of a combining COPY or SCATRED (R231): byte elements take no add. -/
def redopOk (redop t : Nat) : Bool :=
  if t = 0 then decide (2 ≤ redop) && decide (redop ≤ 7) else atomPairOk (BitVec.ofNat 4 t) (BitVec.ofNat 4 redop)

/-! ### Index block (R232) -/

/-- ILIST. -/
def Packet.ilist (p : Packet) : Nat := p.word 0 + p.word 1 % 2 ^ 16 * 2 ^ 32
/-- ITYPE. -/
def Packet.itype (p : Packet) : Nat := p.word 1 / 2 ^ 16 % 16
/-- BOUND. -/
def Packet.bound (p : Packet) : Nat := p.word 2
/-- SENTINEL. -/
def Packet.sentinel (p : Packet) : Nat := p.word 3
/-- FILL. -/
def Packet.fillValue (p : Packet) : Nat := p.word 4 + p.word 5 * 2 ^ 32

/-- Operations that read an index list. -/
def Packet.indexed (p : Packet) : Bool := p.op == 2 || p.op == 3 || p.op == 4 || p.op == 6

/-- Source scale address (R230). -/
def Packet.srcScale (p : Packet) : Nat := p.word 2 + p.word 3 % 2 ^ 16 * 2 ^ 32
/-- Destination scale address (R230). -/
def Packet.dstScale (p : Packet) : Nat := p.word 6 + p.word 7 % 2 ^ 16 * 2 ^ 32

/-! ### The checks of R224 -/

/-- Codes that no operation has, and extents beyond NDIM. -/
def Packet.codesOk (p : Packet) : Bool :=
  decide (1 ≤ p.op) && decide (p.op ≤ 10) && decide (p.ndim ≤ 5) && decide (p.srcType ≤ 14) && decide (p.dstType ≤ 14) &&
  decide (p.round ≤ 5) && decide (p.redop ≤ 8) && decide (p.scope ≤ 5) && decide (p.srcSpace ≤ 6) && decide (p.dstSpace ≤ 6) &&
  decide (p.reserved = 0) && (List.range 5).all (fun k => decide (k < p.ndim) || decide (p.extent k = 1))

/-- W8 + lo to W8 + hi are zero. -/
def Packet.zeroWords (p : Packet) (lo hi : Nat) : Bool := (List.range 8).all (fun k => decide (k < lo) || decide (hi < k) || decide (p.word k = 0))

/-- Every extent is 1. -/
def Packet.unit (p : Packet) : Bool := p.ext.all (· == 1)

/-- Source and destination types pair: type 0 only with type 0 (R228). -/
def Packet.typesPair (p : Packet) : Bool := decide (p.srcType = 0) == decide (p.dstType = 0)

/-- The limits of a COPY to space 4 (R240). -/
def Packet.sendOk (p : Packet) : Bool :=
  (p.srcSpace == 1 || p.srcSpace == 2) && p.srcType == p.dstType && p.redop == 0 && p.rcnt == 0 && !p.consume && !p.scaled &&
    decide (p.count * typeHalves p.srcType ≤ 2 * 2 ^ 26)

/-- The limits of SCALED (R230). -/
def Packet.scaledOk (p : Packet) : Bool :=
  !p.scaled || (p.op == 1 && (scaledType p.srcType || scaledType p.dstType) && decide (1 ≤ p.srcType) && decide (p.srcType ≤ 7) &&
    decide (1 ≤ p.dstType) && decide (p.dstType ≤ 7) && p.redop == 0 && decide (p.ndim ≤ 3) && decide (p.dstSpace ≤ 3) &&
    decide (p.word 3 < 2 ^ 16) && decide (p.word 7 < 2 ^ 16))

/-- The index block's limits (R232). -/
def Packet.indexOk (p : Packet) : Bool :=
  !p.indexed || ([8, 9, 10, 13, 14].contains p.itype && decide (p.word 1 < 2 ^ 20) && p.zeroWords 6 7 && p.ndim == 1)

/-- REDOP where R231, R233 and R238 allow it, and zero elsewhere. -/
def Packet.redopAllowed (p : Packet) : Bool :=
  match p.op with
  | 1 => p.redop == 0 || (decide (p.redop ≤ 6) && redopOk p.redop p.dstType && decide (p.dstSpace ≤ 2))
  | 4 => decide (1 ≤ p.redop) && decide (p.redop ≤ 7) && redopOk p.redop p.dstType
  | 9 => atomPairOk (BitVec.ofNat 4 p.dstType) (BitVec.ofNat 4 p.redop)
  | _ => p.redop == 0

/-- The spaces, types and words that R226 allows each operation. -/
def Packet.opOk (p : Packet) : Bool :=
  match p.op with
  | 1 => [0, 1, 2, 5].contains p.srcSpace && [0, 1, 2, 3, 4].contains p.dstSpace && (p.srcSpace != 5 || p.ndim == 1) &&
      (p.dstSpace != 4 || p.sendOk) && p.typesPair
  | 2 => p.srcSpace == 0 && [0, 1, 2, 3].contains p.dstSpace && p.typesPair
  | 3 | 4 => [0, 1, 2].contains p.srcSpace && [0, 1, 2].contains p.dstSpace && p.typesPair
  | 5 => p.srcSpace == 6 && [0, 1, 2, 3].contains p.dstSpace && p.srcType == 0
  | 6 => p.srcSpace == 0 && p.dstSpace == 5 && p.dstType == 0 && p.dst % 2 ^ 42 == 0 && p.fence == 0
  | 7 => p.srcSpace == 0 && p.src == 0 && p.dstSpace == 5 && p.zeroWords 0 7 && p.unit && p.srcType == 0 && p.dstType == 0 &&
      p.dst % 2 ^ 42 == 0 && p.fence == 0
  | 8 => p.srcSpace == 0 && p.dstSpace == 0 && p.dst == 0 && p.zeroWords 4 7 && p.srcType == 0 && p.dstType == 0 && p.fence == 0 &&
      !p.consume
  | 9 => [1, 2, 6].contains p.srcSpace && [0, 1, 2].contains p.dstSpace && p.zeroWords 0 3 && p.unit && p.srcType == 0
  | _ => p.srcSpace == 0 && p.src == 0 && p.dstSpace == 0 && p.zeroWords 0 7 && p.unit && p.srcType == 0 && p.dstType == 0

/-- RCNT and CONSUME (R226). -/
def Packet.countsOk (p : Packet) : Bool :=
  (p.rcnt == 0 || p.dstSpace == 0 || p.dstSpace == 2 || p.op == 8) && (!p.consume || p.srcSpace == 0 || p.srcSpace == 2 || p.srcSpace == 5)

/-- A base address and its used strides are multiples of the element size (R224). -/
def Packet.sideAligned (p : Packet) (dest : Bool) (base bytes : Nat) : Bool :=
  decide (base % bytes = 0) && (List.range 4).all (fun k => decide (p.ndim ≤ k + 1) || decide (p.stride dest (k + 1) % bytes = 0))

/-- The alignment rules of R224; an ATOMIC has no strides, and its W12 and W13 are its operand (R226). -/
def Packet.aligned (p : Packet) : Bool :=
  let side := fun (dest : Bool) (base t : Nat) =>
    if p.op = 9 then decide (base % atomicBytes p.dstType = 0) else p.sideAligned dest base (typeBytes t)
  let src := p.srcSpace == 6 || p.op == 7 || p.op == 10 || side false p.src p.srcType
  let dst := p.dstSpace == 4 || p.op == 6 || p.op == 7 || p.op == 8 || side true p.dst p.dstType
  src && dst && !((p.srcType == 7 || p.dstType == 7) && decide (p.extent 0 % 2 = 1))

/-- Every check of R224 and R225; a ring without a team names no team's space. -/
def Packet.ok (p : Packet) (team : Bool) : Bool :=
  p.codesOk && p.opOk && p.countsOk && p.redopAllowed && p.scaledOk && p.indexOk && (!p.indexed || p.ndim == 1) && p.aligned &&
    (team || !(p.srcSpace == 1 || p.srcSpace == 3 || p.dstSpace == 1 || p.dstSpace == 3))

/-! ### Elements (R227, R230) -/

/-- The coordinates of element n (R227). -/
def Packet.coords (p : Packet) (n : Nat) : List Nat :=
  (p.ext.foldl (fun (acc : List Nat × Nat) x => (acc.1 ++ [acc.2 % max x 1], acc.2 / max x 1)) ([], n)).1

/-- An address as a number; one below zero names nothing, and keeps its low 48 bits for FADDR (R246). -/
def addrOf (a : Int) : Nat := if a < 0 then 2 ^ 63 + (a % 2 ^ 48).toNat else a.toNat

/-- Address of element n of a side whose elements are `halves` half bytes, and whether it is a byte's high half. -/
def Packet.elemAddr (p : Packet) (dest : Bool) (base halves n : Nat) : Nat × Bool :=
  let c := p.coords n
  let i0 := c.getD 0 0
  let off : Int := (List.range 4).foldl (fun a k => if k + 1 < p.ndim then a + (c.getD (k + 1) 0 : Int) * p.stride dest (k + 1) else a) 0
  (addrOf ((base : Int) + (i0 * halves / 2 : Nat) + off), decide (halves = 1) && decide (i0 % 2 = 1))

/-- Address of the dense or strided source element n. -/
def Packet.srcAddr (p : Packet) (n : Nat) : Nat × Bool := p.elemAddr false p.src (typeHalves p.srcType) n

/-- Address of the dense or strided destination element n. -/
def Packet.dstAddr (p : Packet) (n : Nat) : Nat × Bool := p.elemAddr true p.dst (typeHalves p.dstType) n

/-- Address of a table's element x. -/
def tableAddr (base type x : Nat) : Nat × Bool := (base + x * typeHalves type / 2, decide (typeHalves type = 1) && decide (x % 2 = 1))

/-- Block of element n within its scale array (R230). -/
def Packet.blockOf (p : Packet) (n : Nat) : Nat :=
  let c := p.coords n
  let nb := (p.extent 0 + 31) / 32
  (c.getD 2 0 * p.extent 1 + c.getD 1 0) * nb + c.getD 0 0 / 32

/-- Elements from n to the end of its block. -/
def Packet.blockLen (p : Packet) (n : Nat) : Nat :=
  let i0 := (p.coords n).getD 0 0
  min (32 - i0 % 32) (p.extent 0 - i0)

/-- Whether a command has a scaled destination (R230). -/
def Packet.scaledDst (p : Packet) : Bool := p.scaled && scaledType p.dstType

/-! ### Bytes and words (R239, R243) -/

/-- Nominal bytes of the first n elements (R243). -/
def Packet.bytesUpTo (p : Packet) (n : Nat) : Nat :=
  match p.op with
  | 1 =>
    if p.dstSpace = 4 then n * typeHalves p.srcType / 2
    else n * typeHalves p.dstType / 2 + (if p.scaledDst then 2 * (if n = 0 then 0 else p.blockOf (n - 1) + 1) else 0)
  | 2 | 3 | 4 | 5 => n * typeHalves p.dstType / 2
  | 9 => if p.srcSpace = 6 then 0 else n * atomicBytes p.dstType
  | _ => 0

/-- Whether an operation has no elements (R235, R239). -/
def Packet.atOnce (p : Packet) : Bool := p.op == 6 || p.op == 7 || p.op == 10

/-- Steps that a command takes: its elements, or one for the operations without elements. -/
def Packet.total (p : Packet) : Nat := if p.op = 6 ∨ p.op = 7 ∨ p.op = 10 then 1 else p.count

/-- Whether the command has no element at all (R224). -/
def Packet.nothing (p : Packet) : Bool := p.count == 0

/-- The address in whose 8-byte word the command synchronises (R239). -/
def Packet.syncAddr (p : Packet) : Nat := p.dst / 8 * 8

end Sys2Proof.Machine
end

