-- ==== Sys2Proof/Machine/HodOps.lean ====
section
/-!
DEFINITION. HodOps: the elements of a command (R228 to R238, R242, R245) as operations: reading and writing an element in
any space, conversion, index lists, gather windows, counted fills, scaled blocks, and the decrements of consuming reads.
-/

namespace Sys2Proof.Machine

/-! ### Whose command -/

/-- The team on whose barriers and near memory a command acts (R222, R225). -/
def State.cmdTeam (s : State) (core : Nat) (k : Cmd) : Option Team :=
  if k.queue = 0 then (s.team core k.trec).filter (fun t => t.ids.task == k.task)
  else if k.tvalid then s.team core k.trec
  else none

/-- Changes what a task will deliver to its launch's status. -/
def State.modTaskSummary (s : State) (task : Nat) (f : Summary → Summary) : State :=
  match s.sched.tasks.find task with
  | some t => { s with sched := { s.sched with tasks := s.sched.tasks.insert task { t with summary := f t.summary } } }
  | none => s

/-- Changes what the task of a command's team will deliver. -/
def State.modCmdSummary (s : State) (core : Nat) (k : Cmd) (f : Summary → Summary) : State :=
  match s.cmdTeam core k with
  | some t => s.modTaskSummary t.ids.task f
  | none => s

/-! ### Near spaces of a command (R225, R245) -/

/-- The place of an access in a near space; none where it is out of bounds or outside the binding. -/
def State.hodLocate (s : State) (core : Nat) (k : Cmd) (sp addr size : Nat) : Option (NearUnit × Nat) :=
  match sp with
  | 1 => (s.cmdTeam core k).bind (fun t =>
      if 2 ^ 33 ≤ addr then none
      else if addr < 2 ^ 32 then (if addr + size ≤ t.env.scratchSize then some (.scratch core, t.env.scratchBase + addr) else none)
      else match nearLocate s core t .peer (addr % 2 ^ 32) size with
        | .ok u => some u
        | .error _ => none)
  | 2 =>
    let g := s.grant k.ctx (dieOf core)
    if addr + size ≤ g.2 then some (.tile (dieOf core), g.1 + addr) else none
  | 3 => (s.cmdTeam core k).bind (fun t =>
      if addr + size ≤ t.env.constSize then some (.const core, t.env.constBase + addr) else none)
  | _ => none

/-- Whether an earlier access of the hod's core to the same place still waits at a bank or a port (R189). -/
def State.hodBusy (s : State) (core : Nat) (u : NearUnit) (p : Nat) : Bool :=
  match u with
  | .tile d => (s.die d).waiting core (p / 64)
  | .scratch c => (s.core c).peerReqs.any (fun q => q.core == core && q.place == p / 8)
  | .const _ => false

/-- Whether an access touches a Spent tile-store line (R208). -/
def State.spentAt (s : State) (u : NearUnit) (p size : Nat) : Bool :=
  match u with
  | .tile d => (wordsOf p size).any (fun w => (((s.die d).counts.find (tileLine (8 * w))).map (fun l => l.count == 0)).getD false)
  | _ => false

/-- Reads a near space for a command. -/
def hodReadNear (s : State) (core : Nat) (k : Cmd) (sp addr size : Nat) : Got Nat :=
  match s.hodLocate core k sp addr size with
  | none => .stop 2 addr sp
  | some (u, p) =>
    if s.hodBusy core u p then .wait s
    else if s.spentAt u p size then .stop 5 addr sp
    else match s.nearPoison u p size with
      | some w => .poison u.unitCode w (s.nearVa u k.ctx (8 * w))
      | none => .ok s (s.nearRead u p size)

/-- What a frozen or thawing tile-store line does to a hod's write (R209): a fault, a wait, or nothing. -/
def State.tileWriteState (s : State) (ctx : Nat) (u : NearUnit) (p : Nat) : Effective :=
  match u with
  | .tile d => (s.ctx ctx).effectiveOn d (apertureAddr d (p - (s.grant ctx d).1))
  | _ => .shared

/-- Whether thread writes are queued at the bank of a place: a hod's landing or combining step takes its turn behind them (R205). -/
def State.bankBusy (s : State) (u : NearUnit) (p : Nat) : Bool :=
  match u with
  | .tile d => decide (0 < (s.die d).bankWrites (s.bankOf d (tileLine p)))
  | _ => false

/-- Changes an element of a near space for a command; with `reads` the old value is used, and may be poisoned. -/
def hodPutNear (s : State) (core : Nat) (k : Cmd) (sp addr size : Nat) (reads : Bool) (f : Nat → Nat) : Got Nat :=
  match s.hodLocate core k sp addr size with
  | none => .stop 2 addr sp
  | some (u, p) =>
    if s.hodBusy core u p || s.bankBusy u p then .wait s
    else match s.tileWriteState k.ctx u p with
      | .frozen _ => .stop 4 addr sp
      | .thawing => .wait s
      | _ =>
        if s.spentAt u p size then .stop 5 addr sp
        else match (if reads then s.nearPoison u p size else none) with
          | some w => .poison u.unitCode w (s.nearVa u k.ctx (8 * w))
          | none => let old := s.nearRead u p size; .ok (s.nearWrite u p (f old) size) old

/-! ### Elements in any space -/

/-- What a state has asked for: the fills that a die waits for (R265), the room made for them, and the remote reads that left the package. -/
def State.keepAsks (s0 s1 : State) : State :=
  let asked := fun (s : State) (d : Nat) =>
    let new := (s1.die d).l2.filter (fun (e : Nat × Sector) => e.2.st == .pending && !(((s.die d).l2.find e.1).map (fun x => x.st == .pending)).getD false)
    if new.isEmpty then s
    else
      let gone := ((s.die d).l2.filter (fun (e : Nat × Sector) => ((s1.die d).l2.find e.1).isNone && s.mayEvict d e.1 e.2)).map (·.1)
      (gone.foldl (fun s k => s.evictSector d k) s).modDie d (fun x => { x with l2 := new.foldl (fun t e => t.insert e.1 e.2) x.l2 })
  let sent := (s1.host.netOut.drop s0.host.netOut.length).filter (fun o => match o with
    | .remoteRead .. => true
    | _ => false)
  let s := (List.range Config.dies).foldl asked s0
  if sent.isEmpty then s else { s with host := { s.host with netOut := s.host.netOut ++ sent } }

/-- A write that must wait has performed nothing; the fills that it waits for stay asked. -/
def Got.orWait {α : Type} (g : Got α) (s0 : State) : Got α :=
  match g with
  | .wait s => .wait (s0.keepAsks s)
  | g => g

/-- The n bytes at an address as they stand. -/
def hodBytes (s : State) (core : Nat) (k : Cmd) (sp addr n : Nat) : Got Nat :=
  if sp = 0 then farRead s core k.ctx addr n else hodReadNear s core k sp addr n

/-- Where a command keeps a byte that it has overwritten. -/
def savedKey (sp addr : Nat) : Nat := sp * 2 ^ 64 + addr

/-- Bytes at an address with those that the command has overwritten as they stood before it. -/
def Cmd.before (k : Cmd) (sp addr v : Nat) : Nat → Nat
  | 0 => 0
  | n + 1 =>
    (match k.saved.find? (fun e => e.1 = savedKey sp addr) with | some e => e.2.toNat | none => v % 256) + 256 * k.before sp (addr + 1) (v / 256) n

/-- What a command reads of bytes that it may have overwritten itself: as they stand, or as they stood before it (R229, R234). -/
def Cmd.older (k : Cmd) (tick sp addr n v : Nat) : Nat :=
  if k.saved = [] then v else if Config.readsOld tick k.count (savedKey sp addr) then k.before sp addr v n else v

/-- Reads n bytes. -/
def hodRead (s : State) (core : Nat) (k : Cmd) (sp addr n : Nat) : Got Nat :=
  (hodBytes s core k sp addr n).bind (fun s' v => .ok s' (k.older s.tick sp addr n v))

/-- Whether the range of a command's source elements meets n bytes at an address. -/
def Packet.srcMeets (p : Packet) (a n : Nat) : Bool :=
  let spans := (List.range 4).map (fun k => if k + 1 < p.ndim then ((p.extent (k + 1) : Int) - 1) * p.stride false (k + 1) else 0)
  decide ((p.src : Int) + spans.foldl (fun x y => x + min 0 y) 0 < a + n) &&
    decide ((a : Int) < p.src + (p.extent 0 * typeHalves p.srcType / 2 + 1 : Nat) + spans.foldl (fun x y => x + max 0 y) 0)

/-- Whether a command may read n bytes of its destination space at an address: as source, index list or table (R229, R234). -/
def Packet.mayRead (p : Packet) (a n : Nat) : Bool :=
  (p.op != 2 && p.srcSpace == p.dstSpace && p.srcMeets a n) ||
    (p.dstSpace == 0 && (p.srcSpace == 5 ||
      (p.indexed && decide (p.ilist < a + n) && decide (a < p.ilist + p.total * typeBytes p.itype)) ||
      (p.op == 2 && decide (p.src < a + n) && decide (a < p.src + p.bound * typeHalves p.srcType / 2 + 1))))

/-- Keeps, before a command writes n bytes at an address, those that it may read and has not overwritten before. -/
def Cmd.save (k : Cmd) (s : State) (core : Nat) (p : Packet) (a n : Nat) : Cmd :=
  if !p.mayRead a n then k
  else match hodBytes s core k p.dstSpace a n with
    | .ok _ v =>
      let cells : List (Nat × Byte) := (List.range n).map (fun i => (savedKey p.dstSpace (a + i), BitVec.ofNat 8 (v / 256 ^ i)))
      { k with saved := k.saved ++ cells.filter (fun e => !k.saved.any (fun x => x.1 == e.1)) }
    | _ => k

/-- The half of a byte that an E2M1 element is (R227), or the whole value. -/
def pickHalf (halves : Nat) (hi : Bool) (v : Nat) : Nat := if halves = 1 then (if hi then v / 16 else v) % 16 else v

/-- A byte with one half replaced. -/
def putHalf (hi : Bool) (v old : Nat) : Nat := if hi then old % 16 + v % 16 * 16 else old / 16 * 16 + v % 16

/-- Reads an element. -/
def readElem (s : State) (core : Nat) (k : Cmd) (sp : Nat) (a : Nat × Bool) (halves : Nat) : Got Nat :=
  (hodRead s core k sp a.1 (max 1 (halves / 2))).bind (fun s v => .ok s (pickHalf halves a.2 v))

/-- Writes half a byte of device memory. -/
def farWriteHalf (s : State) (core ctx va : Nat) (hi : Bool) (v : Nat) : Got Unit :=
  (farPlace s core ctx va .write).bind (fun s key =>
    (readByteAt s core ctx va key).bind (fun s b => farWrite s core ctx va (putHalf hi v b.toNat) 1))

/-- Writes an element. -/
def writeElem (s : State) (core : Nat) (k : Cmd) (sp : Nat) (a : Nat × Bool) (halves v : Nat) : Got Unit :=
  (if sp = 0 then (if halves = 1 then farWriteHalf s core k.ctx a.1 a.2 v else farWrite s core k.ctx a.1 v (halves / 2))
   else (hodPutNear s core k sp a.1 (max 1 (halves / 2)) false (if halves = 1 then putHalf a.2 v else fun _ => v)).bind
     (fun s _ => .ok s ())).orWait s

/-! ### Combination (R231, R238) -/

/-- One combination of an element (R231): bytes compare as natural numbers. -/
def combineElem (redop type old v comparand : Nat) : Nat :=
  match redop, type with
  | 2, 0 => min old v
  | 3, 0 => max old v
  | _, _ => combine redop type old v comparand

/-- Combines a value into an element, indivisibly, at the element's unit (R231, R238): the old value. -/
def combineAt (s : State) (core : Nat) (k : Cmd) (sp addr n : Nat) (c : Combining) (f : Nat → Nat) : Got Nat :=
  (if sp = 0 then farCombine s core k.ctx addr n c f else hodPutNear s core k sp addr n true f).orWait s

/-! ### Counted fills (R208, R242, R265) -/

/-- The launch that stands for none. -/
def noLaunch : Nat := 2 ^ 64

/-- What a counted fill of a command records (R208, R269). -/
def State.lineOf (s : State) (core : Nat) (k : Cmd) (p : Packet) : LineCount :=
  match s.cmdTeam core k with
  | some t => { count := p.rcnt, scope := p.scope, launch := t.ids.grid, cluster := t.ids.cluster, filler := (core, k.trec), task := t.ids.task }
  | none => { count := p.rcnt, scope := p.scope, launch := noLaunch, cluster := 0, filler := (core, 64), task := noLaunch }

/-- A counted fill of a tile-store line (R208), with whether COUNT_SPILL is set. -/
def State.countTile (s : State) (die line : Nat) (l : LineCount) : State × Bool :=
  let old := (((s.die die).counts.find line).map (·.count)).getD 0
  (s.modDie die (fun d => { d with counts := d.counts.insert line { l with count := min (old + l.count) 255 } }), decide (255 < old + l.count))

/-- Sets COUNT_SPILL where a counted fill asks for it (R215). -/
def State.spill (s : State) (core : Nat) (k : Cmd) (b : Bool) : State :=
  if b then s.modCmdSummary core k (fun m => { m with countSpill := true }) else s

/-- The number under which a command remembers a line it has counted or consumed: tile-store lines even, L2 lines odd. -/
def tileMark (line : Nat) : Nat := 2 * line
/-- The same for a line of device memory. -/
def farMark (line : Nat) : Nat := 2 * line + 1

/-- Counts the line of a destination byte, once per command (R242); a write that must wait counts nothing yet. -/
def countAt (s : State) (core : Nat) (k : Cmd) (p : Packet) (addr : Nat) : Got Cmd :=
  if p.rcnt = 0 then .ok s k
  else if p.dstSpace = 2 then
    match s.hodLocate core k 2 addr 1 with
    | none => .stop 2 addr 2
    | some (u, q) =>
      match s.tileWriteState k.ctx u q with
      | .frozen _ => .stop 4 addr 2
      | .thawing => .wait s
      | _ =>
        if k.lines.contains (tileMark (tileLine q)) then .ok s k
        else if s.hodBusy core u q || s.bankBusy u q then .wait s
        else
          let r := s.countTile (dieOf core) (tileLine q) (s.lineOf core k p)
          .ok (r.1.spill core k r.2) { k with lines := k.lines ++ [tileMark (tileLine q)] }
  else if p.dstSpace = 0 then
    (farPlace s core k.ctx addr (if p.redop = 0 then .write else .combine)).bind (fun s key =>
      let line := key / 256
      if k.lines.contains (farMark line) then .ok s k
      else (s.countLine (dieOf core) k.ctx addr key (((s.cmdTeam core k).map (·.env.quota)).getD 0) (s.lineOf core k p)).bind (fun s b =>
        .ok (s.spill core k b) { k with lines := k.lines ++ [farMark line] }))
  else .ok s k

/-! ### Conversion (R228) -/

/-- The generator's state after n steps. -/
def seedAfter : Nat → Word → Word
  | 0, s => s
  | n + 1, s => seedAfter n (seedStep s)

/-- The random word of element n of a command (R228). -/
def Packet.rnd (p : Packet) (n : Nat) : Nat :=
  seedRnd (seedAfter (n + 1) (BitVec.ofNat 64 p.src ^^^ BitVec.ofNat 64 (p.dst * 2 ^ 16)))

/-- The rounding of element n of a command (R228): the packet's modes, never a flush. -/
def Packet.rounding (p : Packet) (n : Nat) : Rounding :=
  { rm := p.round, sat := p.sat, ftz := false, rnd := if p.round = 5 then p.rnd n else 0, srcUnit := none }

/-- Element n converted (R228): equal types are copied unchanged. -/
def Packet.convert (p : Packet) (n x : Nat) : Nat := if p.srcType = p.dstType then x else (cvtElem (p.rounding n) p.srcType p.dstType x).1

/-! ### Index lists and windows (R232 to R235) -/

/-- What an index names (R233). -/
inductive Index where
  | sentinel
  | outOfRange
  | entry (x : Nat)
  deriving DecidableEq, Repr

/-- Classifies an index (R233): the index and SENTINEL are sign- or zero-extended by ITYPE. -/
def classify (itype bound sentinel x : Nat) : Index :=
  let ext := fun (w v : Nat) => if intSigned itype then sgn w v else (v % 2 ^ w : Nat)
  let i := ext (4 * typeHalves itype) x
  if i = ext 32 sentinel then .sentinel
  else if i < 0 ∨ (bound : Int) ≤ i then .outOfRange
  else .entry i.toNat

/-- Reads index i of a list. -/
def readIndex (s : State) (core : Nat) (k : Cmd) (ilist itype bound sentinel i : Nat) : Got Index :=
  (hodRead s core k 0 (ilist + i * typeBytes itype) (typeBytes itype)).bind (fun s x => .ok s (classify itype bound sentinel x))

/-- Adds out-of-range events to a command's launch (R233), saturating. -/
def State.outOfRange (s : State) (core : Nat) (k : Cmd) : State :=
  s.modCmdSummary core k (fun m => { m with oor := min (m.oor + 1) (2 ^ 32 - 1) })

/-- The binding that a window read uses: the one in force at the command's first element (R235). -/
def State.windowOf (s : State) (core : Nat) (k : Cmd) (p : Packet) : Option WinBinding :=
  k.binding.or ((s.die (dieOf core)).windows.find (p.src / 2 ^ 42))

/-- The position that element n of a window read names. -/
def Packet.position (p : Packet) (n : Nat) : Nat := (p.src % 2 ^ 42 * 2 + n * typeHalves p.srcType) / typeHalves p.srcType

/-- Element n of a window read (R235): its value, and whether it is out of range. -/
def readWindow (s : State) (core : Nat) (k : Cmd) (p : Packet) (n : Nat) : Got (Nat × Bool) :=
  match s.windowOf core k p with
  | none => .stop 2 p.src 5
  | some b =>
    if b.ctx ≠ k.ctx ∨ b.etype ≠ p.srcType ∨ b.len ≤ p.position n then .stop 2 (p.src + n * typeHalves p.srcType / 2) 5
    else
      let fill := b.fill % 2 ^ (4 * typeHalves b.etype)
      (readIndex s core k b.ilist b.itype b.bound b.sentinel (p.position n)).bind (fun s i =>
        match i with
        | .sentinel => .ok s (fill, false)
        | .outOfRange => .ok s (fill, true)
        | .entry x => (readElem s core k 0 (tableAddr b.table b.etype x) (typeHalves b.etype)).bind (fun s v => .ok s (v, false)))

/-- Counts an out-of-range event of a window, saturating, in its own count (R193, R235) and in the launch's status (R283). -/
def State.windowOor (s : State) (core : Nat) (k : Cmd) (w : Nat) : State :=
  (s.modDie (dieOf core) (fun d => { d with oor := d.oor.insert w (min (Table.get 0 d.oor w + 1) (2 ^ 32 - 1)) })).outOfRange core k

/-! ### One element's value -/

/-- The value that element n writes, in its destination type, with the command's new record. -/
structure Fetched where
  v : Nat
  cmd : Cmd
  oor : Bool
  deriving DecidableEq, Repr

/-- The FILL value (R236). -/
def Packet.fillElem (p : Packet) : Nat :=
  match p.dstType with
  | 1 => p.src * 2 ^ 16
  | 8 => wrap 64 (sgn 48 p.src)
  | t => p.src % 2 ^ (4 * typeHalves t)

/-- The value of a scaled code (R34, R230). -/
def scaledValue (t scale code : Nat) : FVal :=
  match ((Fmt.ofCode t).getD .e4m3).decode code, s12Value scale with
  | .fin neg num exp, some (sn, se) => .fin neg (num * sn) (exp + se)
  | .inf neg, some (sn, _) => if sn = 0 then .nan false else .inf neg
  | .nan sig, some _ => .nan sig
  | _, none => .nan false

/-- The source scale of element n (R230). -/
def readScale (s : State) (core : Nat) (k : Cmd) (p : Packet) (n : Nat) : Got Nat :=
  (hodRead s core k p.srcSpace (p.srcScale + 2 * p.blockOf n) 2).bind (fun s v => .ok s (v % 2 ^ 12))

/-- Element n of a COPY from a scaled source to an unscaled type (R230): one rounding of the exact product. The spec names no source unit for a
product (R44): a stochastic rounding takes 32 discarded bits, as for a quotient, which is the model's choice (log 13). -/
def Packet.unscale (p : Packet) (n scale code : Nat) : Nat :=
  (((Fmt.ofCode p.dstType).getD .fp32).round (p.rounding n) (scaledValue p.srcType scale code).toExact).1

/-- Reads the source of element n of a COPY, unconverted. -/
def copySource (s : State) (core : Nat) (k : Cmd) (p : Packet) (n : Nat) : Got Fetched :=
  if p.srcSpace = 5 then
    (readWindow s core k p n).bind (fun s r => .ok s { v := r.1, cmd := { k with binding := s.windowOf core k p }, oor := r.2 })
  else (readElem s core k p.srcSpace (p.srcAddr n) (typeHalves p.srcType)).bind (fun s v => .ok s { v := v, cmd := k, oor := false })

/-- The value of element n of a COPY, GATHER or FILL, converted (R228, R233, R236). -/
def fetchElem (s : State) (core : Nat) (k : Cmd) (p : Packet) (n : Nat) : Got Fetched :=
  match p.op with
  | 2 =>
    (readIndex s core k p.ilist p.itype p.bound p.sentinel n).bind (fun s i =>
      let fill := p.fillValue % 2 ^ (4 * typeHalves p.dstType)
      match i with
      | .sentinel => .ok s { v := fill, cmd := k, oor := false }
      | .outOfRange => .ok s { v := fill, cmd := k, oor := true }
      | .entry x => (readElem s core k 0 (tableAddr p.src p.srcType x) (typeHalves p.srcType)).bind (fun s v =>
          .ok s { v := p.convert n v, cmd := k, oor := false }))
  | 5 => .ok s { v := p.fillElem, cmd := k, oor := false }
  | _ =>
    (copySource s core k p n).bind (fun s r =>
      if p.scaled then (readScale s core k p n).bind (fun s sc => .ok s { r with v := p.unscale n sc r.v })
      else .ok s { r with v := p.convert n r.v })

/-! ### One element performed -/

/-- Writes or combines an element at its destination, with the counts of R242. -/
def putElem (s : State) (core : Nat) (k : Cmd) (p : Packet) (a : Nat × Bool) (v : Nat) : Got Cmd :=
  (countAt s core k p a.1).bind (fun s1 k0 =>
    let k := k0.save s core p a.1 (max 1 (typeHalves p.dstType / 2))
    if p.redop = 0 then (writeElem s1 core k p.dstSpace a (typeHalves p.dstType) v).bind (fun s _ => .ok s k)
    else (combineAt s1 core k p.dstSpace a.1 (typeBytes p.dstType)
      { op := p.redop, type := p.dstType, operand := v, comparand := 0 } (fun old => combineElem p.redop p.dstType old v 0)).bind
        (fun s _ => .ok s k))

/-- Element n of a COPY, GATHER or FILL. -/
def moveElem (s : State) (core : Nat) (k : Cmd) (p : Packet) (n : Nat) : Got Cmd :=
  (fetchElem s core k p n).bind (fun s r =>
    (putElem s core r.cmd p (p.dstAddr n) r.v).bind (fun s k =>
      .ok (if r.oor then (if p.op = 2 then s.outOfRange core k else s.windowOor core k (p.src / 2 ^ 42)) else s) k))

/-- Element n of a SCATTER or SCATRED (R233, R234): its index and its source element are read; a skipped index writes nothing. -/
def scatterElem (s : State) (core : Nat) (k : Cmd) (p : Packet) (n : Nat) : Got Cmd :=
  (readIndex s core k p.ilist p.itype p.bound p.sentinel n).bind (fun s i =>
    (readElem s core k p.srcSpace (p.srcAddr n) (typeHalves p.srcType)).bind (fun s v =>
      match i with
      | .sentinel => .ok s k
      | .outOfRange => .ok (s.outOfRange core k) k
      | .entry x => putElem s core k p (tableAddr p.dst p.dstType x) (p.convert n v)))

/-- The source elements of a scaled block, one after another: each as a value, with its code. -/
def readBlock (s : State) (core : Nat) (k : Cmd) (p : Packet) (n : Nat) : Nat → Got (List (FVal × Nat) × Cmd)
  | 0 => .ok s ([], k)
  | c + 1 =>
    (copySource s core k p n).bind (fun s r =>
      (if p.scaled && scaledType p.srcType then (readScale s core r.cmd p n).bind (fun s sc => .ok s (scaledValue p.srcType sc r.v))
       else .ok s (((Fmt.ofCode p.srcType).getD .fp32).decode r.v)).bind (fun s v =>
        (readBlock s core r.cmd p (n + 1) c).bind (fun s rest => .ok (if r.oor then s.windowOor core r.cmd (p.src / 2 ^ 42) else s)
          ((v, r.v) :: rest.1, rest.2))))

/-- The codes and the scale of a quantised block (R103, R230). -/
def quantiseBlock (p : Packet) (n : Nat) (vs : List FVal) : Nat × List Nat :=
  let T := (Fmt.ofCode p.srcType).getD .fp32
  let D := (Fmt.ofCode p.dstType).getD .e4m3
  let sc := blockScale (BitVec.ofNat 4 p.dstType) vs
  (if sc.2 then 0xFF0 else sc.1, vs.zipIdx.map (fun e => (quantCode T D (p.rounding (n + e.2)) sc.1 (e.1, 0)).1))

/-- Writes the codes of a block. -/
def putBlock (core : Nat) (p : Packet) : List Nat → Nat → State → Cmd → Got Cmd
  | [], _, s, k => .ok s k
  | v :: r, n, s, k => (putElem s core k p (p.dstAddr n) v).bind (fun s k => putBlock core p r (n + 1) s k)

/-- Writes the two bytes of a scale, whose address may be odd: each has a place of its own (R224, R230). -/
def putScale (s : State) (core : Nat) (k : Cmd) (p : Packet) (a v : Nat) : Got Cmd :=
  (countAt s core k p a).bind (fun s k =>
    (writeElem s core k p.dstSpace (a, false) 2 (v % 256)).bind (fun s _ =>
      (countAt s core k p (a + 1)).bind (fun s k =>
        (writeElem s core k p.dstSpace (a + 1, false) 2 (v / 256)).bind (fun s _ => .ok s k))))

/-- The scaled block that begins at element n (R230): its scale and codes are performed together (R245). -/
def blockElem (s : State) (core : Nat) (k : Cmd) (p : Packet) (n : Nat) : Got Cmd :=
  (readBlock s core k p n (p.blockLen n)).bind (fun s r =>
    (if p.srcType = p.dstType then (readScale s core r.2 p n).bind (fun s sc => .ok s (sc, r.1.map (·.2)))
     else .ok s (quantiseBlock p n (r.1.map (·.1)))).bind (fun s q =>
      ((putBlock core p q.2 n s r.2).bind (fun s k => putScale s core k p (p.dstScale + 2 * p.blockOf n) q.1)).orWait s))

/-! ### Decrements of consuming reads (R242) -/

/-- The line of device memory at a virtual address. -/
def State.farLine (s : State) (ctx va : Nat) : List Nat :=
  match s.homeWord ctx va with
  | some key => [farMark (key / 256)]
  | none => []

/-- The lines of n bytes of device memory, at most a line's length. -/
def State.farLines (s : State) (ctx va n : Nat) : List Nat := (s.farLine ctx va ++ s.farLine ctx (va + n - 1)).eraseDups

/-- A byte of device memory as a hod would read it now, whether or not its sector is in an L2 yet. -/
def State.peekByte (s : State) (core ctx va : Nat) : Option Byte :=
  (s.homeWord ctx va).map (fun key =>
    let home := s.homeByte (s.cryptOf ctx va) key
    match s.owner (key / 256) with
    | some (d, _) => (((s.die d).l2.find (key / 64)).map (fun x => x.byte (key % 64))).getD home
    | none => match (s.die (dieOf core)).l2.find (key / 64) with
      | some x => if x.valid.getLsbD (key % 64) then x.byte (key % 64) else home
      | none => home)

/-- The index at a place, as the hod would read it now. -/
def peekIndex (s : State) (core : Nat) (k : Cmd) (ilist itype bound sentinel i : Nat) : Option Index :=
  let n := typeBytes itype
  ((List.range n).foldr (fun j (v : Option Nat) => v.bind (fun v =>
      (s.peekByte core k.ctx (ilist + i * n + j)).map (fun b => b.toNat + 256 * v))) (some 0)).map (classify itype bound sentinel)

/-- The lines that an index-list element reads: the index, and the table element it names. -/
def State.indexLines (s : State) (core : Nat) (k : Cmd) (ilist itype bound sentinel table etype i : Nat) : List Nat :=
  s.farLines k.ctx (ilist + i * typeBytes itype) (typeBytes itype) ++
    (match peekIndex s core k ilist itype bound sentinel i with
     | some (.entry x) => s.farLine k.ctx (tableAddr table etype x).1
     | _ => [])

/-- The tile-store lines of n bytes that a command reads in space 2. -/
def State.tileLines (s : State) (core : Nat) (k : Cmd) (addr n : Nat) : List Nat :=
  ((s.hodLocate core k 2 addr n).map (fun u => ([tileLine u.2, tileLine (u.2 + n - 1)].eraseDups).map tileMark)).getD []

/-- The source lines that element n reads (R242); an ATOMIC writes its source (R238), and the operations without elements read none. -/
def State.sourceLines (s : State) (core : Nat) (k : Cmd) (p : Packet) (n : Nat) : List Nat :=
  let plain :=
    match p.srcSpace with
    | 0 => if p.op = 2 || p.atOnce then [] else s.farLine k.ctx (p.srcAddr n).1
    | 2 => if p.op = 9 then [] else s.tileLines core k (p.srcAddr n).1 1
    | _ => []
  let scales := if p.scaled && scaledType p.srcType then
      (match p.srcSpace with
       | 0 => s.farLines k.ctx (p.srcScale + 2 * p.blockOf n) 2
       | 2 => s.tileLines core k (p.srcScale + 2 * p.blockOf n) 2
       | _ => [])
    else []
  let indexed :=
    match p.op with
    | 2 => s.indexLines core k p.ilist p.itype p.bound p.sentinel p.src p.srcType n
    | 3 | 4 => s.farLines k.ctx (p.ilist + n * typeBytes p.itype) (typeBytes p.itype)
    | _ => []
  let window := if p.op = 1 ∧ p.srcSpace = 5 then
      ((s.windowOf core k p).map (fun b => s.indexLines core k b.ilist b.itype b.bound b.sentinel b.table b.etype (p.position n))).getD []
    else []
  plain ++ scales ++ indexed ++ window

/-- Takes one count of a line. -/
def State.consumeMark (s : State) (die mark : Nat) : State := if mark % 2 = 0 then s.consumeLine die (mark / 2) else s.consumeFar (mark / 2)

/-- Once elements n to n + c - 1 are performed, the lines that no later element reads lose one count each (R242); `before`
is the state in which they were read. -/
def consumeAfter (before s : State) (core : Nat) (k : Cmd) (p : Packet) (n c : Nat) : State :=
  if !p.consume then s
  else
    let here := ((List.range c).flatMap (fun i => before.sourceLines core k p (n + i))).eraseDups
    let later := (List.range (p.total - (n + c))).flatMap (fun i => before.sourceLines core k p (n + c + i))
    (here.filter (fun l => !later.contains l)).foldl (fun s l => s.consumeMark (dieOf core) l) s

end Sys2Proof.Machine
end

