-- ==== Sys2Proof/Machine/HodSteps.lean ====
section
/-!
DEFINITION. HodSteps: the steps of the hods (R217 to R222, R235 to R245): taking packets from queue 0 and the rings, performing
the elements of each operation, fences, completion, faults, and what the network and the host do to a command.
-/

namespace Sys2Proof.Machine

/-! ### Ends of commands (R243, R244) -/

/-- Whether a word of a ring can be written now: its page and its home are there, and its region is not THAWING (R336, R340, R398). -/
def State.wordReady (s : State) (ctx va : Nat) : Bool :=
  match s.walk ctx va with
  | .page l => s.homeUp (l.key + (va - l.base)) && (s.ctx ctx).effective va != .thawing
  | .denied | .poison _ => true
  | .fault .. | .wait => false

/-- Adds to a word of 8 bytes at its home slice, for the hod, which needs W there (R333); where the page or a FROZEN region forbids the write nothing is
written (log 89). -/
def State.addWord (s : State) (ctx va n : Nat) : State :=
  match s.walk ctx va with
  | .page l =>
    if !l.w || (s.ctx ctx).frozen va then s
    else match s.homeRead ctx va (l.key + (va - l.base)) 8 with
      | .ok _ v => s.homePut ctx va (l.key + (va - l.base)) (v + n) 8
      | _ => s
  | _ => s

/-- Counts one ended command: a group's counter falls (R27), one of class 3 in posting order with the matrix operations (R133), or DONE rises
(R222). -/
def State.countEnd (s : State) (core : Nat) (f : Flight) : State :=
  if f.queue = 0 then
    if s.teamHere core f.tr f.task then
      s.modGroup core f.tr f.grp (fun g => if f.cls = 3 then g.unpost (commandPost f.seq) else g.countDown f.cls)
    else s
  else s.addWord f.ctx (f.ring + 16) 1

/-- The commands of one queue, in posting order. -/
def Flight.sameQueue (f g : Flight) : Bool := f.queue == g.queue && f.ring == g.ring && f.ctx == g.ctx

/-- The counts fall in posting order, each once all older commands of its queue have ended (R243), and a ring's once its DONE can be written. -/
def State.flushFlights (s : State) (core : Nat) : State :=
  let r := (s.core core).hod.flight.foldl (fun (a : State × List Flight) f =>
    if f.done && !a.2.any (·.sameQueue f) then
      if f.queue == 0 || a.1.wordReady f.ctx (f.ring + 16) then (a.1.countEnd core f, a.2) else (a.1.askPage f.ctx (f.ring + 16), a.2 ++ [f])
    else (a.1, a.2 ++ [f])) (s, [])
  r.1.modHod core (fun h => { h with flight := r.2 })

/-- A command has ended (R243). -/
def State.flightDone (s : State) (core queue seq : Nat) : State :=
  (s.modHod core (fun h => { h with flight := h.flight.map (fun f => if f.queue == queue && f.seq == seq then { f with done := true } else f) })).flushFlights
    core

/-- A command leaves its slot, completed or abandoned: its arrival or error completion, its counts, and what waits for it. -/
def State.endCmd (s : State) (core : Nat) (k : Cmd) (completed : Bool) : State :=
  let p := Packet.of k.pkt
  let s := match s.cmdTeam core k with
    | none => s
    | some _ =>
      if !completed then s.barError core k.trec p.bar
      else if p.arrive then (s.barArrive core k.trec p.bar false).1
      else s
  let s := if completed && k.queue == 0 then s.watchRestart k.task else s
  let s := s.flightDone core k.queue k.seq
  if k.queue = 0 then s.commandEnded core k.trec k.seq k.ctx else s

/-- Frees a slot of a hod. -/
def State.freeSlot (s : State) (core slot : Nat) : State := s.modHod core (fun h => { h with cmds := h.cmds.erase slot })

/-- Writes a command's record. -/
def State.setCmd (s : State) (core slot : Nat) (k : Cmd) : State := s.modHod core (fun h => { h with cmds := h.cmds.insert slot k })

/-- The command in a slot. -/
def State.cmd (s : State) (core slot : Nat) : Option Cmd := (s.core core).hod.cmds.find slot

/-- Abandons the command in a slot (R244). -/
def State.abandon (s : State) (core slot : Nat) : State :=
  match s.cmd core slot with
  | none => s
  | some k => (s.freeSlot core slot).endCmd core k false

/-! ### Acceptance (R217 to R222, R224) -/

/-- A command as accepted. -/
def Cmd.accepted (pkt : BitVec 512) (queue grp trec : Nat) (tvalid : Bool) (ctx task seq : Nat) : Cmd :=
  { pkt := pkt, state := .waiting, kind := 0, queue := queue, grp := grp, trec := trec, tvalid := tvalid, ctx := ctx, task := task, seq := seq,
    count := 0, faddr := 0, fspace := 0, bytes := 0, released := false, acquired := false, lines := [], binding := none, message := none,
    stopped := false, sent := 0, deadline := 0, saved := [] }

/-- Accepted commands of the same queue that came earlier. -/
def Hod.earlier (h : Hod) (k : Cmd) : List Cmd := (h.cmds.filter (fun e => e.2.queue == k.queue && decide (e.2.seq < k.seq))).map (·.2)

/-- Whether a command is a local order point (R241). -/
def Packet.orderPoint (p : Packet) : Bool := p.op == 10 && p.fence == 0

/-- Whether a command acquires. -/
def Packet.acquires (p : Packet) : Bool := p.fence == 1 || p.fence == 3

/-- Whether a command releases. -/
def Packet.releases (p : Packet) : Bool := p.fence == 2 || p.fence == 3

/-- Whether a command may perform elements (R241). -/
def Hod.mayRun (h : Hod) (k : Cmd) (p : Packet) : Bool :=
  let es := h.earlier k
  !es.any (fun e => (Packet.of e.pkt).acquires || (Packet.of e.pkt).orderPoint) && (!(p.releases || p.orderPoint) || es.isEmpty)

/-- The hod takes a packet: a bad one is abandoned with n = 0, one with a zero extent completes at once, the others take the
lowest free slot (R224, R246). -/
def State.accept (s : State) (core : Nat) (k : Cmd) : State :=
  let p := Packet.of k.pkt
  if !p.ok (k.queue == 0 || k.tvalid) then s.endCmd core k false
  else if p.nothing then s.endCmd core k true
  else
    let h := (s.core core).hod
    match (List.range 128).find? (fun n => (h.cmds.find n).isNone) with
    | none => s
    | some slot => s.setCmd core slot { k with state := if h.mayRun k p then .running else .waiting }

/-- A queue-table entry; entry 0 is queue 0's. -/
def Hod.entry (h : Hod) (q : Nat) : QEntry := Table.get QEntry.reset h.queues q

/-- Whether a queue has a packet ready. -/
def Hod.readyAt (h : Hod) (q : Nat) : Bool := if q = 0 then !h.q0.isEmpty else (h.ready.find q).isSome

/-- Takes the packet of a queue: queue 0's oldest, or the ring slot that was read, whose READ rises (R219, R220). -/
def State.takePacket (s : State) (core q : Nat) : State :=
  let h := (s.core core).hod
  let s := s.modHod core (fun h => { h with rr := q })
  if q = 0 then
    match h.q0 with
    | [] => s
    | x :: r => (s.modHod core (fun h => { h with q0 := r })).accept core (Cmd.accepted x.pkt 0 x.grp x.tr true x.ctx x.task x.seq)
  else
    match h.ready.find q with
    | none => s
    | some pkt =>
      let e := h.entry q
      let s := s.modHod core (fun h =>
        { h with seq := h.seq + 1, ready := h.ready.erase q,
                 flight := h.flight ++ [{ queue := q, ring := e.base, ctx := e.ctx, seq := h.seq, tr := e.trec, grp := 0, task := 0,
                                          cls := 0, bar := 0, done := false }] })
      (s.addWord e.ctx (e.base + 8) 1).accept core (Cmd.accepted pkt q 0 e.trec e.tvalid e.ctx 0 h.seq)

/-- Whether a hod works: neither its core nor its die is fenced (R4, R398). -/
def State.hodUp (s : State) (core : Nat) : Bool := !s.hours.fenced.cores.contains core && (s.die (dieOf core)).state == .online

/-- Whether the hod can take the packet of a queue: a ring's READ can be written (R219). -/
def State.canTake (s : State) (core q : Nat) : Bool :=
  let h := (s.core core).hod
  h.readyAt q && (q == 0 || s.wordReady (h.entry q).ctx ((h.entry q).base + 8))

/-- HOD_ACCEPT_PACKET: while it has room, the hod takes a packet from the next ready queue after the one served last; inbox
commands come first (R217, R222). -/
def execHodAcceptPacket (core : Nat) (s0 : State) : Host.Outcome State Fault Refusal :=
  let s := s0.flushFlights core
  let h := (s.core core).hod
  if 128 ≤ h.cmds.length + h.inboxRun.length || !h.inbox.isEmpty || !s.served || !s.hodUp core then .next s
  else match ((List.range 8).map (fun k => (h.rr + 1 + k) % 8)).find? (s.canTake core) with
    | none => .next s
    | some q => .next (s.takePacket core q)

/-! ### Memory rings (R219, R220) -/

/-- The expected LAP of index k in a ring of 2^logn slots (R220). -/
def expectedLap (k logn : Nat) : Nat := k / 2 ^ logn % 255 + 1

/-- Reads ring bytes at their home slice: refused where they cannot be read in a SHARED or PRIVATE region, and waiting for a page (R336) or a home
(R398). -/
def State.ringRead (s : State) (ctx va n : Nat) : Got Nat :=
  match s.walk ctx va, (s.ctx ctx).effective va with
  | .wait, _ => .wait s
  | .fault .., _ => .wait (s.askPage ctx va)
  | .page l, .shared | .page l, .priv _ =>
    if !l.r then .stop 2 va 0
    else if !s.homeUp (l.key + (va - l.base)) then .wait s
    else s.homeRead ctx va (l.key + (va - l.base)) n
  | _, _ => .stop 2 va 0

/-- A ring that cannot be read is disabled, and the host told (R219). -/
def State.disableRing (s : State) (core q : Nat) : State :=
  let e := (s.core core).hod.entry q
  let s := s.modHod core (fun h => { h with queues := h.queues.insert q { e with en := false }, ready := h.ready.erase q })
  s.raiseEvent 6 e.ctx [core, q]

/-- RING_SLOT_READ: the hod reads slot READ; with the expected LAP its packet is ready (R220). -/
def execRingSlotRead (core q : Nat) (s0 : State) : Host.Outcome State Fault Refusal :=
  let s := s0.flushFlights core
  let h := (s.core core).hod
  let e := h.entry q
  if q = 0 || !e.en || (h.ready.find q).isSome || !s.served || !s.hodUp core then .next s
  else
    let r := (s.ringRead e.ctx (e.base + 8) 8).bind (fun s rd => (s.ringRead e.ctx (e.base + 24) 8).bind (fun s tail =>
      if tail ≤ rd then .ok s none
      else (s.ringRead e.ctx (e.base + 64 + 64 * (rd % 2 ^ e.logn)) 64).bind (fun s v =>
        .ok s (if (Packet.of (BitVec.ofNat 512 v)).lap = expectedLap rd e.logn then some (BitVec.ofNat 512 v) else none))))
    match r with
    | .ok s (some pkt) => .next (s.wakeUp.modHod core (fun h => { h with ready := h.ready.insert q pkt }))
    | .ok s none | .wait s => .next s
    | .stop .. | .poison .. => .next (s.disableRing core q)

/-! ### Faults (R245, R390) -/

/-- A command stops at an engine fault (R245). PREFETCH stops and completes at any but a page fault (R237). A page fault joins those that the scheduler
core resolves (R337). -/
def State.cmdFault (s : State) (core slot : Nat) (k : Cmd) (kind addr space : Nat) : State :=
  let p := Packet.of k.pkt
  if p.op = 8 ∧ kind ≠ 1 then s.setCmd core slot { k with state := .running, stopped := true, kind := 0, faddr := 0, fspace := 0 }
  else if kind = 5 ∨ kind = 6 then (s.setCmd core slot k).abandon core slot
  else
    let s := s.setCmd core slot { k with state := .suspended, kind := kind, faddr := addr % 2 ^ 48, fspace := space,
                                         deadline := s.ns + s.sched.hold * 1000 }
    if kind = 1 then s.askPage k.ctx (addr % 2 ^ 48) else s.raiseEvent 3 k.ctx [core, slot, kind, addr % 2 ^ 48]

/-- A command reads a poisoned word (R390): a task's command stops and the task is contained; a ring's packet is abandoned. -/
def State.cmdPoison (s : State) (core slot : Nat) (k : Cmd) (unit place addr : Nat) : State :=
  if k.queue = 0 then (s.setCmd core slot { k with state := .suspended }).consumePoison k.task unit core place addr
  else
    let at_ := s.errorPlace unit core place
    (((s.setCmd core slot k).abandon core slot).countUncorrected unit).recordError
      { cls := 3, unit := unit, die := at_.1, ctx := k.ctx, index := at_.2, addr := addr % 2 ^ 48, task := 0, action := 5 }

/-! ### Fences of a command (R239, R259, R260) -/

/-- The key of a command's synchronisation word in device memory. -/
def syncKey (s : State) (core : Nat) (k : Cmd) (p : Packet) : Got Nat :=
  match s.translate core k.ctx p.syncAddr with
  | .page l => .ok (s.tlbInsert core l) (l.key + (p.syncAddr - l.base))
  | .fault .. => .stop 1 p.syncAddr 0
  | .denied => .stop 2 p.syncAddr 0
  | .wait => .wait s
  | .poison at_ => .poison 7 (at_ / 8) p.syncAddr

/-- A command's release, before its elements (R259). -/
def releaseCmd (s : State) (core : Nat) (k : Cmd) (p : Packet) : Got Cmd :=
  if !p.releases || k.released then .ok s k
  else if p.dstSpace = 0 then
    (syncKey s core k p).bind (fun s key =>
      if s.releaseReady k.ctx (dieOf core) key p.scope then .ok (s.release k.ctx (dieOf core) key p.scope) { k with released := true } else .wait s)
  else if decide (4 ≤ p.scope) && !s.drainable (s.sharedOf k.ctx) [dieOf core] then .wait s
  else .ok (s.nearFence k.ctx (dieOf core) p.scope false) { k with released := true }

/-- A command's acquire (R260). -/
def acquireCmd (s : State) (core : Nat) (k : Cmd) (p : Packet) : Got Cmd :=
  if !p.acquires || k.acquired then .ok s k
  else if p.dstSpace = 0 then
    (syncKey s core k p).bind (fun s key =>
      if s.acquireReady k.ctx (dieOf core) key p.scope then .ok (s.acquire k.ctx (dieOf core) key p.scope) { k with acquired := true } else .wait s)
  else .ok (s.nearFence k.ctx (dieOf core) p.scope true) { k with acquired := true }

/-! ### Operations without strided elements -/

/-- GWBIND (R235). -/
def bindWindow (s : State) (core : Nat) (k : Cmd) (p : Packet) : Got Cmd :=
  let w := p.dst / 2 ^ 42
  let d := s.die (dieOf core)
  if ((d.windows.find w).map (fun b => b.ctx != k.ctx)).getD false then .stop 2 p.dst 5
  else
    let b : WinBinding := { ctx := k.ctx, ilist := p.ilist, itype := p.itype, bound := p.bound, sentinel := p.sentinel,
                            fill := p.fillValue % 2 ^ (4 * typeHalves p.srcType), table := p.src, etype := p.srcType, len := p.extent 0 }
    .ok (s.setDie (dieOf core) { d with windows := d.windows.insert w b, oor := d.oor.erase w }) k

/-- Whether a command of a die is reading a window. -/
def State.windowRead (s : State) (die w : Nat) : Bool :=
  (List.range Config.coresPerDie).any (fun c => (s.core (die * Config.coresPerDie + c)).hod.cmds.any (fun e =>
    e.2.binding.isSome && pktWindow e.2.pkt == some w))

/-- GWFREE (R235). -/
def freeWindow (s : State) (core : Nat) (k : Cmd) (p : Packet) : Got Cmd :=
  let w := p.dst / 2 ^ 42
  let d := s.die (dieOf core)
  match d.windows.find w with
  | none => .ok s k
  | some b =>
    if b.ctx ≠ k.ctx then .stop 2 p.dst 5
    else if s.windowRead (dieOf core) w then .wait s
    else .ok (s.setDie (dieOf core) { d with windows := d.windows.erase w, oor := d.oor.erase w }) k

/-- One byte of a PREFETCH (R237): counted with RCNT, else read into the L2. -/
def prefetchElem (s : State) (core : Nat) (k : Cmd) (p : Packet) (n : Nat) : Got Cmd :=
  let va := (p.srcAddr n).1
  if p.rcnt = 0 then (farRead s core k.ctx va 1).bind (fun s _ => .ok s k)
  else (farPlace s core k.ctx va .fillRead).bind (fun s key =>
    let line := key / 256
    if k.lines.contains (farMark line) then .ok s k
    else (s.countLine (dieOf core) k.ctx va key (((s.cmdTeam core k).map (·.env.quota)).getD 0) (s.lineOf core k p)).bind (fun s b =>
      .ok (s.spill core k b) { k with lines := k.lines ++ [farMark line] }))

/-- ATOMIC (R238): the place of the old value is checked first, and that the acquire can act, which it does at the element. -/
def atomicElem (s : State) (core : Nat) (k : Cmd) (p : Packet) : Got Cmd :=
  let n := atomicBytes p.dstType
  let w := 2 ^ (8 * n)
  let operand := (p.word 4 + p.word 5 * 2 ^ 32) % w
  let comparand := (p.word 6 + p.word 7 * 2 ^ 32) % w
  let dry := if p.srcSpace = 6 then .ok s 0 else hodPutNear s core k p.srcSpace p.src n false id
  let fences := (acquireCmd s core k p).bind (fun _ _ => .ok s ())
  dry.bind (fun _ _ => fences.bind (fun _ _ =>
    (countAt s core k p p.dst).bind (fun s k =>
      (combineAt s core k p.dstSpace p.dst n { op := p.redop, type := p.dstType, operand := operand, comparand := comparand }
        (fun old => combine p.redop p.dstType old operand comparand)).bind (fun s old =>
          (if p.srcSpace = 6 then .ok s 0 else hodPutNear s core k p.srcSpace p.src n false (fun _ => old)).bind (fun s _ =>
            acquireCmd s core k p)))))

/-! ### Sends (R240, R355) -/

/-- The bytes of a little-endian value. -/
def bytesLE (v : Nat) : Nat → List Byte
  | 0 => []
  | n + 1 => BitVec.ofNat 8 v :: bytesLE (v / 256) n

/-- The payload from element n on, of c elements. -/
def sendBytes (core : Nat) (k : Cmd) (p : Packet) (s : State) (n : Nat) : Nat → Got (List Byte)
  | 0 => .ok s []
  | c + 1 =>
    let h := typeHalves p.srcType
    (if h = 1 ∧ n % 2 = 1 then .ok s []
     else (hodRead s core k p.srcSpace (p.srcAddr n).1 (max 1 (h / 2))).bind (fun s v => .ok s (bytesLE v (max 1 (h / 2))))).bind (fun s b =>
      (sendBytes core k p s (n + 1) c).bind (fun s r => .ok s (b ++ r)))

/-- Sends a command's message from its first unacknowledged element on (R240, R355): a ROD message by the named port, a RUD message sprayed over the
healthy ports of SPRAY. -/
def sendMessage (s : State) (core : Nat) (k : Cmd) (p : Packet) : Got Cmd :=
  let port := p.dst % 16
  let q := p.dst / 2 ^ 4 % 256
  let e := Table.get SendQ.reset s.host.sendQs q
  if 2 ^ 44 ≤ p.dst || !e.en || e.ctx != k.ctx then .stop 2 p.dst 4
  else if s.hours.fenced.ports.contains port || (e.spray != 0 && !e.spray.testBit port) then .stop 7 p.dst 4
  else (sendBytes core k p s k.count (p.total - k.count)).bind (fun s bs =>
    let ports : BitVec 16 := if e.rod || e.spray == 0 then 1#16 <<< port
      else BitVec.ofNat 16 e.spray &&& ~~~ (s.hours.fenced.ports.foldl (fun m x => m ||| (1#16 <<< x)) 0)
    .ok { s with host := { s.host with netOut := s.host.netOut ++ [.message port q (p.dst / 2 ^ 12 % 2 ^ 32) e.job e.rq e.rod ports bs] } }
      { k with message := some (k.count * typeHalves p.srcType / 2), sent := s.ns })

/-! ### Performing elements -/

/-- Credits the bytes that a command has performed (R243). -/
def State.credit (s : State) (core : Nat) (k : Cmd) (p : Packet) (n : Nat) : State :=
  let b := p.bytesUpTo n - k.bytes
  if b = 0 then s
  else match s.cmdTeam core k with
    | some _ => s.barEvent core k.trec p.bar (·.bytes b)
    | none => s

/-- A command that has performed its elements up to n. -/
def Cmd.at (k : Cmd) (p : Packet) (n : Nat) : Cmd := { k with count := n, bytes := p.bytesUpTo n, state := .running }

/-- Elements that one element step takes: a whole block of a scaled destination (R230, R245). -/
def Packet.blockAt (p : Packet) (n : Nat) : Nat := if p.op = 1 ∧ p.scaledDst then p.blockLen n else 1

/-- Element steps that are performed together: the following elements that lie in the same aligned 8 bytes of the destination, so that no reader of them
meets a part (R150, R159, R256, R364). -/
def Packet.grain (p : Packet) (n : Nat) : Nat :=
  if (p.op = 1 ∨ p.op = 2 ∨ p.op = 5) ∧ p.redop = 0 ∧ !p.scaledDst ∧ typeHalves p.dstType < 16 then
    1 + ((List.range 15).takeWhile (fun i => decide (n + i + 1 < p.total) && (p.dstAddr (n + i + 1)).1 / 8 == (p.dstAddr n).1 / 8)).length
  else 1

/-- Whether a command has nothing left to perform. -/
def Cmd.over (k : Cmd) (p : Packet) : Bool := k.stopped || decide (p.total ≤ k.count)

/-- The next element or block of a command. -/
def elemStep (s : State) (core : Nat) (k : Cmd) (p : Packet) : Got Cmd :=
  match p.op with
  | 3 | 4 => scatterElem s core k p k.count
  | 6 => bindWindow s core k p
  | 7 => freeWindow s core k p
  | 8 => prefetchElem s core k p k.count
  | 9 => atomicElem s core k p
  | 10 => acquireCmd s core k p
  | _ => if p.scaledDst then blockElem s core k p k.count else moveElem s core k p k.count

/-- Performs c element steps of a command together, from a state and record in which none of them is performed: they wait together, and a fault or a
poisoned word at one of them leaves those before it performed (R245). With whether the command goes on. -/
def runUnit (s0 : State) (core slot : Nat) (k0 : Cmd) (p : Packet) : Nat → State → Cmd → State × Bool
  | 0, s, k => (s.setCmd core slot k, true)
  | c + 1, s, k =>
    let g := p.blockAt k.count
    match elemStep s core k p with
    | .ok s' k' =>
      runUnit s0 core slot k0 p c ((consumeAfter s s' core k p k.count g).credit core k' p (k.count + g)) (k'.at p (k.count + g))
    | .wait s' => ((if k.count = k0.count then s' else s0.keepAsks s').setCmd core slot k0, false)
    | .stop kind a sp => (s.cmdFault core slot k kind a sp, false)
    | .poison u w a => (s.cmdPoison core slot k u w a, false)

/-- Performs up to `fuel` elements, blocks or 8-byte groups of the command in a slot; a command that sends sends its message at once. -/
def runCmd (core slot : Nat) : Nat → State → State
  | 0, s => s
  | fuel + 1, s =>
    match s.cmd core slot with
    | none => s
    | some k =>
      let p := Packet.of k.pkt
      if k.state == .suspended || k.over p || !(s.core core).hod.mayRun k p || !s.hodUp core then s
      else
        match releaseCmd s core k p with
        | .wait s => s
        | .stop kind a sp => s.cmdFault core slot k kind a sp
        | .poison u w a => s.cmdPoison core slot k u w a
        | .ok s k =>
          if p.op = 1 ∧ p.dstSpace = 4 then
            if k.message.isSome then s
            else match sendMessage s core k p with
              | .ok s k => s.setCmd core slot { k with state := .running }
              | .wait s => s.setCmd core slot k
              | .stop kind a sp => s.cmdFault core slot k kind a sp
              | .poison u w a => s.cmdPoison core slot k u w a
          else
            let r := runUnit s core slot k p (p.grain k.count) s k
            if r.2 then runCmd core slot fuel r.1 else r.1

/-- A step of the command in a slot, where it has this operation. -/
def State.runOp (s : State) (core slot op n : Nat) : Host.Outcome State Fault Refusal :=
  match s.cmd core slot with
  | none => .next s
  | some k => if (Packet.of k.pkt).op = op then .next (runCmd core slot n s) else .next s

/-- COPY: performs up to n elements. -/
def execCopy (core slot n : Nat) (s : State) : Host.Outcome State Fault Refusal := s.runOp core slot 1 n

/-- GATHER: performs up to n elements. -/
def execGather (core slot n : Nat) (s : State) : Host.Outcome State Fault Refusal := s.runOp core slot 2 n

/-- SCATTER: performs up to n elements. -/
def execScatter (core slot n : Nat) (s : State) : Host.Outcome State Fault Refusal := s.runOp core slot 3 n

/-- SCATRED: performs up to n elements. -/
def execScatred (core slot n : Nat) (s : State) : Host.Outcome State Fault Refusal := s.runOp core slot 4 n

/-- FILL: performs up to n elements. -/
def execFill (core slot n : Nat) (s : State) : Host.Outcome State Fault Refusal := s.runOp core slot 5 n

/-- GWBIND. -/
def execGwbind (core slot : Nat) (s : State) : Host.Outcome State Fault Refusal := s.runOp core slot 6 1

/-- GWFREE. -/
def execGwfree (core slot : Nat) (s : State) : Host.Outcome State Fault Refusal := s.runOp core slot 7 1

/-- PREFETCH: performs up to n bytes. -/
def execPrefetch (core slot n : Nat) (s : State) : Host.Outcome State Fault Refusal := s.runOp core slot 8 n

/-- ATOMIC. -/
def execAtomic (core slot : Nat) (s : State) : Host.Outcome State Fault Refusal := s.runOp core slot 9 1

/-- FENCE_COMMAND. -/
def execFenceCommand (core slot : Nat) (s : State) : Host.Outcome State Fault Refusal := s.runOp core slot 10 1

/-- COMMAND_COMPLETION: every element is performed and the acquire done; the arrival is delivered and the counts fall (R243). -/
def execCommandCompletion (core slot : Nat) (s : State) : Host.Outcome State Fault Refusal :=
  match s.cmd core slot with
  | none => .next s
  | some k =>
    let p := Packet.of k.pkt
    if k.state == .suspended || !k.over p then .next s
    else match acquireCmd s core k p with
      | .ok s k => .next ((s.freeSlot core slot).endCmd core k true)
      | .wait s => .next s
      | .stop kind a sp => .next (s.cmdFault core slot k kind a sp)
      | .poison u w a => .next (s.cmdPoison core slot k u w a)

/-! ### Held commands (R245, R246) -/

/-- Whether a command is held for the host (R245). -/
def Cmd.isHeld (k : Cmd) : Bool := k.state == .suspended && (k.kind == 2 || k.kind == 3 || k.kind == 4 || k.kind == 7)

/-- A suspended command runs again from its element count (R245). -/
def State.resume (s : State) (core slot : Nat) : State :=
  match s.cmd core slot with
  | none => s
  | some k => s.setCmd core slot { k with state := .running, kind := 0, faddr := 0, fspace := 0 }

/-- HOLD_TIME_EXPIRY: a command held for its limit is abandoned. -/
def execHoldTimeExpiry (core slot : Nat) (s : State) : Host.Outcome State Fault Refusal :=
  match s.cmd core slot with
  | none => .next s
  | some k => if k.isHeld && decide (k.deadline ≤ s.ns) then .next (s.abandon core slot) else .next s

/-- COMMAND_RESUME. -/
def execCommandResume (core slot : Nat) (s : State) : Host.Outcome State Fault Refusal :=
  match s.cmd core slot with
  | none => .next s
  | some k => if k.isHeld then .next (s.resume core slot) else .next s

/-- COMMAND_ABANDON. -/
def execCommandAbandon (core slot : Nat) (s : State) : Host.Outcome State Fault Refusal :=
  match s.cmd core slot with
  | none => .next s
  | some k => if k.isHeld then .next (s.abandon core slot) else .next s

/-! ### The network's answers (R240, R355, R359) -/

/-- NETWORK_ACKNOWLEDGEMENT: one more packet of a command's message is acknowledged, and its elements are credited. -/
def execNetworkAcknowledgement (core slot : Nat) (s : State) : Host.Outcome State Fault Refusal :=
  match s.cmd core slot with
  | none => .next s
  | some k =>
    let p := Packet.of k.pkt
    match k.message with
    | none => .next s
    | some b =>
      if k.state == .suspended then .next s
      else
        let b' := min (b + 4096) (p.total * typeHalves p.srcType / 2)
        let n := b' * 2 / typeHalves p.srcType
        .next ((s.credit core k p n).setCmd core slot { k.at p n with message := some b', sent := s.ns })

/-- SEND_RETRY_TIMEOUT: a message that has been refused or left unacknowledged for its queue's RETRY is unreachable (R355). -/
def execSendRetryTimeout (core slot : Nat) (s : State) : Host.Outcome State Fault Refusal :=
  match s.cmd core slot with
  | none => .next s
  | some k =>
    let p := Packet.of k.pkt
    let q := Table.get SendQ.reset s.host.sendQs (p.dst / 2 ^ 4 % 256)
    if k.message.isNone || k.state == .suspended || k.over p || decide (s.ns < k.sent + q.retry * 1000) then .next s
    else .next (s.cmdFault core slot { k with message := none } 7 p.dst 4)

/-- Whether a command of device memory has elements left. -/
def Cmd.remote (k : Cmd) : Bool :=
  let p := Packet.of k.pkt
  k.state != .suspended && !k.over p && (p.srcSpace == 0 || p.dstSpace == 0 || p.srcSpace == 5)

/-- REMOTE_READ_REFUSAL: a peer refused the remote read or atomic of a command, which is held with a permission fault (R359). -/
def execRemoteReadRefusal (core slot : Nat) (s : State) : Host.Outcome State Fault Refusal :=
  match s.cmd core slot with
  | none => .next s
  | some k =>
    let p := Packet.of k.pkt
    if k.remote then .next (s.cmdFault core slot k 2 (if p.srcSpace = 0 then (p.srcAddr k.count).1 else (p.dstAddr k.count).1) 0) else .next s

end Sys2Proof.Machine
end

