-- ==== Sys2Proof/Machine/Paging.lean ====
section
/-!
DEFINITION. Paging: page faults and migration (R336, R337), and the steps of the L2 and the scheduler core that end a wait for
memory: SECTOR_FILL_COMPLETE, L2_EVICTION (R265, R266) and PAGE_FAULT_RESOLUTION.
-/

namespace Sys2Proof.Machine

/-! ### The L2 -/

/-- Whether a die keeps a sector that has been fetched: its region lets it hold a copy (R213, R252, R340), and the home is elsewhere. -/
def State.keepsCopy (s : State) (die sector : Nat) (x : Sector) : Bool :=
  !s.homedOn die (64 * sector) && (match (s.ctx x.ctx).effectiveOn die x.va with
    | .thawing => false
    | .priv d => d == die
    | _ => true)

/-- SECTOR_FILL_COMPLETE: a fill ends; the sector is a Clean copy, or Dirty with bytes of the die's own, and where the die keeps no copy of it any more
it leaves (R213, R265, R340). -/
def execSectorFillComplete (die sector : Nat) (s : State) : Host.Outcome State Fault Refusal :=
  match (s.die die).l2.find sector with
  | none => .next s
  | some x =>
    if x.st != .pending || !s.homeUp (64 * sector) then .next s
    else if s.keepsCopy die sector x then
      .next ((s.fetchPoison die sector x).modDie die (fun d =>
        { d with l2 := d.l2.insert sector { s.fetchInto sector x with st := if x.dirty = 0 then .clean else .dirty } }))
    else .next ((if x.dirty = 0 then s else s.writeBack die sector x).dropSector die sector)

/-- L2_EVICTION: a sector leaves a die's L2, its dirty bytes first going home; a pending or pinned one stays (R265, R267). -/
def execL2Eviction (die sector : Nat) (s : State) : Host.Outcome State Fault Refusal :=
  match (s.die die).l2.find sector with
  | none => .next s
  | some x => if s.mayEvict die sector x then .next (s.evictSector die sector) else .next s

/-! ### Resolution of a page fault (R337) -/

/-- The entry in which a walk from a level's table ends: its address, its contents and its level. -/
def entryFrom (rd : Nat → Nat) (va : Nat) : Nat → Nat → Nat × Nat × Nat
  | level, table =>
    let at_ := table + 8 * (va / 2 ^ levelShift level % levelCount level)
    let p := rd at_
    if !p.testBit 0 || p.testBit 1 then (at_, p, level)
    else match level with
      | 0 => (at_, p, 0)
      | n + 1 => entryFrom rd va n (bitsOf p 8 44 * 256)

/-- The entry of a context's page table in which the walk of an address ends. -/
def State.entryAt (s : State) (ctx va : Nat) : Nat × Nat × Nat := entryFrom (s.plainWord (s.ctx ctx).keyNo) va 3 (s.ctx ctx).ptroot

/-- The lowest aligned free range of a context's pool, in bytes of physical HBM. -/
def Ctx.poolFind (k : Ctx) (size : Nat) : Option Nat :=
  let units := size / 2 ^ 16
  ((List.range (k.poolLen / units + 1)).map (fun i => (k.poolBase + units - 1) / units * units + i * units)).find? (fun b =>
    decide (b + units ≤ k.poolBase + k.poolLen) &&
      k.poolUsed.all (fun u => decide (b + units ≤ u.1) || decide (u.1 + u.2 ≤ b))) |>.map (· * 2 ^ 16)

/-- The sectors of a physical range. -/
def pageSectors (key size : Nat) : SectorTest := fun k _ => decide (key ≤ 64 * k) && decide (64 * k < key + size)

/-- Every die drains its Dirty sectors of a physical range and drops its copies of them. -/
def State.drainPage (s : State) (key size : Nat) : State :=
  (List.range Config.dies).foldl (fun s d => (s.sectorsOf d (fun k x => pageSectors key size k x && x.st == .clean && !(s.die d).pins k)).foldl
    (fun s k => s.dropSector d k) s) (s.drainAll (pageSectors key size))

/-- Copies a physical range to another, with its poison, as the keys of its offsets read it; the bytes of the target are written throughout, under
those keys (R337, R403). -/
def State.copyPage (s : State) (ck : Nat → Nat) (src dst size : Nat) : State :=
  let inside := fun (e : Nat × Byte) => decide (src ≤ e.1) && decide (e.1 < src + size)
  let tags := s.farKeys.filter (fun (e : Nat × (Nat × Nat)) => decide (src ≤ 64 * e.1) && decide (64 * e.1 < src + size))
  let far := (s.far.filter inside).foldl (fun m e => m.write (dst + (e.1 - src)) e.2) (s.far.forget dst size)
  let far := (tags.filter (fun e => e.2.1 != ck (64 * e.1 - src))).foldl (fun (m : Memory) e =>
    (List.range 64).foldl (fun (m : Memory) i =>
      m.write (dst + (64 * e.1 - src) + i) (Config.scramble e.2.1 e.2.2 (ck (64 * e.1 - src)) (64 * e.1 + i))) m) far
  let others := s.farKeys.filter (fun (e : Nat × (Nat × Nat)) => !(decide (dst ≤ 64 * e.1) && decide (64 * e.1 < dst + size)))
  let keys := tags.foldl (fun (t : Table (Nat × Nat)) e =>
    t.insert ((dst + (64 * e.1 - src)) / 64) (ck (64 * e.1 - src), if e.2.1 = ck (64 * e.1 - src) then e.2.2 else s.tick)) others
  let kept := s.hours.poison.filter (fun x => match x with
    | .far w => !(decide (dst ≤ 8 * w) && decide (8 * w < dst + size))
    | _ => true)
  let moved := s.hours.poison.filterMap (fun x => match x with
    | .far w => if src ≤ 8 * w ∧ 8 * w < src + size then some (.far (dst / 8 + (w - src / 8))) else none
    | _ => none)
  { s with far := far, farKeys := keys, hours := { s.hours with poison := kept ++ moved } }

/-- Fills a physical range with zeros. -/
def State.zeroPage (s : State) (dst size : Nat) : State :=
  { s with far := s.far.forget dst size,
           farKeys := s.farKeys.filter (fun (e : Nat × (Nat × Nat)) => !(decide (dst ≤ 64 * e.1) && decide (64 * e.1 < dst + size))),
           hours := { s.hours with poison := s.hours.poison.filter (fun x => match x with
             | .far w => !(decide (dst ≤ 8 * w) && decide (8 * w < dst + size))
             | _ => true) } }

/-- INVAL of a context over a virtual range (R335); it ends the denial of pages that the host has mapped again (R398). -/
def State.inval (s : State) (ctx lo hi : Nat) : State :=
  let s := { s with hours := { s.hours with lostPages := s.hours.lostPages.filter (fun p => !(p.1 == ctx && decide (p.2.1 < hi) && decide (lo < p.2.1 + p.2.2))) } }
  s.tlbRemove (fun l => l.ctx == ctx && decide (l.base < hi) && decide (lo < l.base + l.size))

/-- Maps a page on HBM of the pool (R337, steps 4 to 6): filled with zeros for a DEMAND entry, with the old page's bytes for one in the second tier. If
the host has written the entry since `old` was read, which of the two writes persists is unspecified. -/
def State.mapPage (s : State) (ctx base size at_ old pa : Nat) : State :=
  let mig := old.testBit 0
  let from_ := bitsOf old 8 44 * 256
  let s := if mig then s.copyPage (fun i => s.cryptOf ctx (base + i)) (2 ^ 52 + from_) pa size else s.zeroPage pa size
  let s := s.modCtx ctx (fun k => { k with poolUsed := k.poolUsed ++ [(pa / 2 ^ 16, size / 2 ^ 16)] })
  let key := (s.ctx ctx).keyNo
  let hosts := s.plainWord key at_ != old && Config.freeChoice s.tick at_ % 2 == 1
  let s := if hosts then s else s.homeWrite ctx key (cellsOf at_ (3 + 4 * (if mig then old / 4 % 8 else 7) + pa) 8)
  if mig then s.raiseEvent 5 ctx [from_, size] else s

/-- Gives a page of the second tier new HBM from the pool at once, with whether there was room (R305). -/
def State.remapPage (s : State) (ctx va base size : Nat) : State × Bool :=
  let e := s.entryAt ctx va
  match (s.ctx ctx).poolFind size with
  | none => (s.raiseEvent 9 ctx [va], false)
  | some pa =>
    let s := s.inval ctx base (base + size)
    let s := if e.2.1.testBit 0 then s.drainPage (2 ^ 52 + bitsOf e.2.1 8 44 * 256) size else s
    (s.mapPage ctx base size e.1 e.2.1 pa, true)

/-- The commands that wait for a page of a context: core and slot. -/
def State.pageWaiters (s : State) (ctx lo hi : Nat) : List (Nat × Nat) :=
  s.cores.flatMap (fun c => (c.2.hod.cmds.filter (fun e =>
    e.2.state == .suspended && e.2.kind == 1 && e.2.ctx == ctx && decide (lo ≤ e.2.faddr) && decide (e.2.faddr < hi))).map (fun e => (c.1, e.1)))

/-- A page fault is no longer to be resolved: the commands that wait for its page go on, or are held with a permission fault (R245, R337). -/
def State.endFault (s : State) (f : PageFault) (mapped : Bool) : State :=
  let s := { s with sched := { s.sched with faults := s.sched.faults.filter (fun x => !(x.ctx == f.ctx && x.base == f.base)) } }
  (s.pageWaiters f.ctx f.base (f.base + f.size)).foldl (fun s w =>
    if mapped then s.resume w.1 w.2
    else match s.cmd w.1 w.2 with
      | some k => s.cmdFault w.1 w.2 k 2 k.faddr k.fspace
      | none => s) s

/-- A fault is taken up (R337, steps 1 to 3): its page's entry is marked as changing, INVAL is performed over the page, and of one in the second tier
every die drains its sectors and drops its copies. An entry that the host has changed meanwhile ends the wait. -/
def State.beginFault (s : State) (f : PageFault) : State :=
  if (s.changing f.ctx f.va).isSome then s
  else match s.walk f.ctx f.va with
    | .wait => s
    | .page _ => s.endFault f true
    | .denied | .poison _ => s.endFault f false
    | .fault base size =>
      let e := s.entryAt f.ctx f.va
      let page := 2 ^ 52 + bitsOf e.2.1 8 44 * 256
      if e.2.1.testBit 0 && !s.drainable (pageSectors page size) (List.range Config.dies) then s
      else
        let s := s.inval f.ctx base (base + size)
        let s := if e.2.1.testBit 0 then s.drainPage page size else s
        { s with sched := { s.sched with faults := s.sched.faults.map (fun (x : PageFault) =>
          if x == f then { f with base := base, size := size, begun := some (e.1, e.2.1) } else x) } }

/-- A fault that has been taken up ends (R337, steps 4 to 6), once the homes of the new page are in service (R398); without room in the pool it is a
permission fault. -/
def State.finishFault (s : State) (f : PageFault) (at_ old : Nat) : State :=
  if !((List.range Config.dies).all (fun d => (s.die d).state == .online)) then s
  else match (s.ctx f.ctx).poolFind f.size with
    | none => (s.raiseEvent 9 f.ctx [f.va]).endFault f false
    | some pa => (s.mapPage f.ctx f.base f.size at_ old pa).endFault f true

/-- PAGE_FAULT_RESOLUTION: the scheduler core takes up the oldest fault that waits, at most 8 at once, or ends one that it has taken up. -/
def execPageFaultResolution (ctx va : Nat) (s : State) : Host.Outcome State Fault Refusal :=
  match s.sched.faults.find? (fun f => f.covers ctx va) with
  | none => .next s
  | some f =>
    if s.sched.stopped || s.hours.power == .p3 then .next s
    else match f.begun with
      | some e => .next (s.finishFault f e.1 e.2)
      | none =>
        let first := (s.sched.faults.find? (fun x => x.begun.isNone)) == some f
        if first && decide ((s.sched.faults.filter (fun x => x.begun.isSome)).length < 8) then .next (s.beginFault f) else .next s

end Sys2Proof.Machine
end

