-- ==== Sys2Proof/Machine/Network.lean ====
section
/-!
DEFINITION. Network: accesses of the host and of peers to device memory at the home slices (R340, R351, R359), and the steps that
the network brings: NETWORK_PACKET_RECEIVE (R356), PEER_REMOTE_REQUEST (R359) and REMOTE_WRITE_REFUSAL (R360).
-/

namespace Sys2Proof.Machine

/-- The number that bytes spell, little-endian (R5). -/
def numLE (bs : List Byte) : Nat := bs.foldr (fun (b : Byte) acc => b.toNat + 256 * acc) 0

/-! ### Accesses at the home slices -/

/-- What an access of the host or a peer finds: its value, a status, or a wait for a page, a home or a thaw. -/
inductive HostGot where
  | ok (s : State) (v : Nat)
  | refused (s : State) (st : GclStatus) (v : Nat)
  | wait (s : State)

/-- The next part of an access. -/
def HostGot.bind (g : HostGot) (f : State → Nat → HostGot) : HostGot :=
  match g with
  | .ok s v => f s v
  | .refused s st v => .refused s st v
  | .wait s => .wait s

/-- A poisoned word that the host or a peer would read: it is denied, and recorded (R387, R390). -/
def State.denyPoison (s : State) (ctx unit place addr : Nat) : HostGot :=
  let at_ := s.errorPlace unit 0 place
  .refused ((s.countUncorrected unit).recordError
    { cls := 3, unit := unit, die := at_.1, ctx := ctx, index := at_.2, addr := addr % 2 ^ 48, task := 0, action := 0 }) .denied 0

/-- The key of an address (R351): the status where it has none, and a wait while the scheduler core resolves its page or its home is out of
service. -/
def hostPlace (s : State) (ctx va : Nat) (need : FarNeed) : HostGot :=
  if 0xFFFF00000000 ≤ va then .refused s .denied 0
  else match s.walk ctx va with
    | .page l =>
      let key := l.key + (va - l.base)
      if !l.allows need || s.channelGone key then .refused s .denied 0
      else if s.homeUp key then .ok s key else .wait s
    | .fault base size =>
      if s.sched.faults.any (fun f => f.ctx == ctx && f.base == base) then .wait s
      else if ((s.ctx ctx).poolFind size).isNone then .refused (s.raiseEvent 9 ctx [va]) .nomap 0
      else .wait (s.askPage ctx va)
    | .denied => .refused s .nomap 0
    | .poison at_ => s.denyPoison ctx 7 (at_ / 8) va
    | .wait => .wait s

/-- The value that an access reads at the home slice: a Spent line or a poisoned word is denied (R267, R390). -/
def hostValue (s : State) (ctx va key n : Nat) : HostGot :=
  match s.homeRead ctx va key n with
  | .ok s v => .ok s v
  | .poison u w a => s.denyPoison ctx u w a
  | .wait s => .wait s
  | .stop .. => .refused s .denied 0

/-- A read at the home slice; a peer's sector is read there (R359). -/
def hostRead (s : State) (ctx va n : Nat) : HostGot :=
  (hostPlace s ctx va .read).bind (fun s key => hostValue (s.askHome ctx key) ctx va key n)

/-- A write dropped at a frozen range (R340): FROZENWR rises and event 7 tells the owner. -/
def State.frozenWrite (s : State) (ctx va source : Nat) : State :=
  (s.modCtx ctx (fun k => { k with frozenwr := min (k.frozenwr + 1) (2 ^ 32 - 1) })).raiseEvent 7 ctx [va, source]

/-- Whether a counted line at a key is Spent. -/
def State.spentLine (s : State) (key : Nat) : Bool := ((s.owner (key / 256)).map (fun o => o.2.count == 0)).getD false

/-- Bytes written at the home slice or into a pinned copy; in a PRIVATE region the die's older Clean bytes go (R267, R340). -/
def State.hostPut (s : State) (ctx va key v n : Nat) : State :=
  let s := s.homePut ctx va key v n
  match (s.ctx ctx).effective va with
  | .priv e => s.dropClean e key n
  | _ => s

/-- A write at the home slice under R340. -/
def hostWrite (s : State) (ctx va v n source : Nat) : HostGot :=
  (hostPlace s ctx va .write).bind (fun s key =>
    match (s.ctx ctx).effective va with
    | .frozen _ => .refused (s.frozenWrite ctx va source) .frozen 0
    | .thawing => .wait s
    | _ => if s.spentLine key then .refused s .denied 0 else .ok (s.hostPut ctx va key v n) 0)

/-- An atomic at the home slice: the old value; over a frozen range nothing changes (R351). -/
def hostAtomic (s : State) (ctx va n source : Nat) (c : Combining) : HostGot :=
  (hostPlace s ctx va .combine).bind (fun s key =>
    if (s.ctx ctx).effective va == .thawing then .wait s
    else (hostValue s ctx va key n).bind (fun s old =>
      if (s.ctx ctx).frozen va then .refused (s.frozenWrite ctx va source) .frozen old
      else if isPeerKey key then
        .ok { s with host := { s.host with netOut := s.host.netOut ++
          [.remoteAtomic ctx (key / 2 ^ 48 % 16) (key % 2 ^ 48) c.op c.type c.operand c.comparand] } } old
      else .ok (s.hostPut ctx va key (combine c.op c.type old c.operand c.comparand) n) old))

/-! ### Receive queues (R356) -/

/-- Sends something to the network. -/
def State.emit (s : State) (o : NetOut) : State := { s with host := { s.host with netOut := s.host.netOut ++ [o] } }

/-- A receive queue. -/
def State.recvQ (s : State) (q : Nat) : RecvQ := Table.get RecvQ.reset s.host.recvQs q

/-- Writes a receive queue. -/
def State.setRecvQ (s : State) (q : Nat) (e : RecvQ) : State :=
  { s with host := { s.host with recvQs := s.host.recvQs.insert q e } }

/-- Whether bytes from an address on can land: every byte's page and region allow it (R340, R356), with `put` at each, the last byte first. -/
def landWith (put : State → Nat → Nat → Byte → State) (s : State) (ctx source : Nat) : Nat → List Byte → HostGot
  | _, [] => .ok s 0
  | va, b :: r =>
    (hostPlace s ctx va .write).bind (fun s key =>
      match (s.ctx ctx).effective va with
      | .frozen _ => .refused (s.frozenWrite ctx va source) .frozen 0
      | .priv _ => .refused s .denied 0
      | .thawing => .wait s
      | .shared =>
        if s.spentLine key then .refused s .denied 0
        else (landWith put s ctx source (va + 1) r).bind (fun s _ => .ok (put s va key b) 0))

/-- Lands a list of bytes from an address on. -/
def landBytes (s : State) (ctx source va : Nat) (bs : List Byte) : HostGot :=
  landWith (fun s va key b => s.homePut ctx va key b.toNat 1) s ctx source va bs

/-- Whether a header can be written from an address on; the key of its first byte. -/
def headerPlace (s : State) (ctx source va : Nat) : HostGot :=
  (landWith (fun s _ _ _ => s) s ctx source va (List.replicate 64 0)).bind (fun s _ => hostPlace s ctx va .write)

/-- The header of a landed message (R356): TAG, TRUNC, LEN, source endpoint and source send queue. -/
def landHeader (e : RecvQ) (m : InMsg) (total : Nat) : Nat :=
  m.n / 2 ^ e.logs % 255 + 1 + (decide (2 ^ e.logz - 64 < total)).toNat * 2 ^ 8 + total % 2 ^ 32 * 2 ^ 32 + m.src % 2 ^ 32 * 2 ^ 64 +
    m.sq % 2 ^ 8 * 2 ^ 96

/-- Slot of a message. -/
def RecvQ.slot (e : RecvQ) (n : Nat) : Nat := e.base + n % 2 ^ e.logs * 2 ^ e.logz

/-- Whether a slot index is free (R356): FREED is read at its home slice. -/
def State.slotFree (s : State) (e : RecvQ) (n : Nat) : Bool :=
  match s.homeWord e.ctx e.freed with
  | none => false
  | some key => match s.homeRead e.ctx e.freed key 8 with
    | .ok _ f => decide (n < f + 2 ^ e.logs)
    | _ => false

/-- Whether a packet keeps the order of ordered delivery (R354, R356): the packets of a message come in order, and a message begins once those that its
send queue sent before it have ended. -/
def RecvQ.inOrder (e : RecvQ) (rod : Bool) (src sq off : Nat) (old : Option InMsg) : Bool :=
  !rod || (match old with
    | some m => off == m.landed
    | none => off == 0 && !e.msgs.any (fun m => m.rod && m.src == src && m.sq == sq))

/-- Whether the last packet of a message must wait, for under ordered delivery headers are written in slot order (R357). -/
def RecvQ.headerWaits (e : RecvQ) (m : InMsg) : Bool := m.rod && e.msgs.any (fun x => x.rod && decide (x.n < m.n))

/-- The payload of a packet lands, and with the last packet the header after it, at its home slice, where every release's bytes are (R356). -/
def landPacket (s : State) (e : RecvQ) (m : InMsg) (off total : Nat) (payload : List Byte) : HostGot :=
  let put := fun (s : State) => landBytes s e.ctx m.src (e.slot m.n + 64 + off) (payload.take (2 ^ e.logz - 64 - off))
  if m.landed < total then put s
  else if e.headerWaits m then .wait s
  else (headerPlace s e.ctx m.src (e.slot m.n)).bind (fun s key =>
    (put s).bind (fun s _ => .ok (s.homePut e.ctx (e.slot m.n) key (landHeader e m total) 64) 0))

/-- Whether a packet's sender delivers in order (R354): the operand that carries the number of its send queue in bits 7 to 0 carries the mode in
bit 8. -/
def isOrdered (sq : Nat) : Bool := sq.testBit 8

/-- NETWORK_PACKET_RECEIVE: a packet of a message, of at most 4,096 bytes, is refused, or its payload lands; after the last one the header is written.
One that waits is not acknowledged and comes again. -/
def execNetworkPacketReceive (q src job sq mid off total : Nat) (payload : Bytes) (s : State) : Host.Outcome State Fault Refusal :=
  let e := s.recvQ q
  let rod := isOrdered sq
  let refuse := fun (s : State) => Host.Outcome.next (s.emit (.packetRefused q src mid off))
  let old := e.msgs.find? (fun m => m.src == src && m.sq == sq && m.mid == mid)
  let m := old.getD { src := src, sq := sq, mid := mid, n := e.h, landed := 0, rod := rod }
  let m := { m with landed := m.landed + payload.length }
  if !e.en || e.job != job || !s.live e.ctx || decide (4096 < payload.length) || !e.inOrder rod src sq off old then refuse s
  else if old.isNone && !s.slotFree e e.h then refuse s
  else match landPacket s e m off total payload with
    | .wait s => .next s
    | .refused s _ _ => refuse s
    | .ok s _ =>
      let rest := e.msgs.filter (fun x => !(x.src == src && x.sq == sq && x.mid == mid))
      let e' := { e with h := if old.isNone then e.h + 1 else e.h, msgs := if total ≤ m.landed then rest else rest ++ [m] }
      .next ((s.setRecvQ q e').emit (.packetAck q src mid off))

/-! ### Export windows (R358 to R360) -/

/-- The context and peer number that an export request reaches (R359): an enabled entry of the source endpoint and JOB whose
range holds the address and whose bits allow the access; a peer cut off by THAWLIMIT reaches none (R343). -/
def State.exportOf (s : State) (endpoint job addr len : Nat) (write : Bool) : Option Nat :=
  (s.host.peers.find? (fun x =>
    let e := x.2
    e.en && e.endpoint == endpoint && e.job == job && decide (e.expbase * 2 ^ 16 ≤ addr) &&
      decide (addr + len ≤ (e.expbase + e.explen) * 2 ^ 16) && (if write then e.expw else e.expr) &&
      s.live (x.1 / 16 + 1) && !(s.ctx (x.1 / 16 + 1)).cut.getLsbD (x.1 % 16))).map (fun x => x.1 / 16 + 1)

/-- PEER_REMOTE_REQUEST: an exporter performs or refuses a remote read (0), write (1) or atomic (2); one that waits is asked again. -/
def execPeerRemoteRequest (endpoint job req addr len op type operand comparand : Nat) (data : Bytes) (s : State) :
    Host.Outcome State Fault Refusal :=
  let refuse := fun (s : State) => Host.Outcome.next (s.emit (.refusal endpoint addr (req == 1)))
  match s.exportOf endpoint job addr len (req != 0) with
  | none => refuse s
  | some c =>
    let r := match req with
      | 0 => hostRead s c addr len
      | 1 => hostWrite s c addr (numLE data) len endpoint
      | _ => hostAtomic s c addr len endpoint { op := op, type := type, operand := operand, comparand := comparand }
    match r with
    | .wait s => .next s
    | .refused s _ _ => refuse s
    | .ok s v => if req = 1 then .next s else .next (s.emit (.readReply endpoint ((s.ctx c).frozen addr) (bytesLE v len)))

/-- REMOTE_WRITE_REFUSAL: the writing device raises event 7 with the address (R360). -/
def execRemoteWriteRefusal (ctx peer addr : Nat) (s : State) : Host.Outcome State Fault Refusal :=
  .next (s.raiseEvent 7 ctx [addr, (Table.get PeerEntry.reset s.host.peers ((ctx - 1) * 16 + peer)).endpoint])

end Sys2Proof.Machine
end

