-- ==== Sys2Proof/Machine/Launch.lean ====
section
/-!
DEFINITION. Launch: the launch block (R301, R302) as fields, the groups it asks for (R304), and the checks of R303 that the
block alone decides.
-/

namespace Sys2Proof.Machine

/-! ### Fields of a launch block -/

/-- Bits [lo + w - 1 : lo] of a block. -/
def Block.f (b : Block) (lo w : Nat) : Nat := (b.extractLsb' lo w).toNat

/-- PRIO. -/
def Block.prio (b : Block) : Nat := b.f 16 2
/-- NONIDEM. -/
def Block.nonidem (b : Block) : Bool := b.f 18 1 == 1
/-- STREAM. -/
def Block.stream (b : Block) : Bool := b.f 19 1 == 1
/-- NODE. -/
def Block.node (b : Block) : Bool := b.f 20 1 == 1
/-- QUOTA. -/
def Block.quota (b : Block) : Nat := b.f 21 3
/-- CKEY. -/
def Block.ckey (b : Block) : Nat := b.f 32 16
/-- CODEBASE. -/
def Block.codeBase (b : Block) : Nat := b.f 64 48
/-- CODELEN. -/
def Block.codeLen (b : Block) : Nat := b.f 128 32
/-- XMODE. -/
def Block.xmode (b : Block) : BitVec 17 := b.extractLsb' 160 17
/-- W. -/
def Block.width (b : Block) : Nat := b.f 192 4
/-- H. -/
def Block.height (b : Block) : Nat := b.f 196 4
/-- NCLUSTER. -/
def Block.clusters (b : Block) : Nat := b.f 200 32
/-- SCRATCH. -/
def Block.scratch (b : Block) : Nat := b.f 256 21
/-- CONSTSZ. -/
def Block.constSize (b : Block) : Nat := b.f 288 19
/-- COMPL. -/
def Block.compl (b : Block) : Nat := b.f 320 48
/-- ENTRY of a role (R302). -/
def Block.entry (b : Block) (k : Nat) : Nat := b.f (384 + 128 * k) 48
/-- BUDGET of a role, in registers (R302). -/
def Block.budget (b : Block) (k : Nat) : Nat := 8 * b.f (432 + 128 * k) 8
/-- GROUPS of a role (R302). -/
def Block.groupsOf (b : Block) (k : Nat) : Nat := b.f (440 + 128 * k) 8
/-- HANDLER of a role (R302). -/
def Block.handler (b : Block) (k : Nat) : Nat := b.f (448 + 128 * k) 48
/-- EXPA and EXPB of a barrier (R302). -/
def Block.barrier (b : Block) (j : Nat) : Nat × Nat := (b.f (896 + 48 * j) 16, b.f (912 + 48 * j) 32)
/-- NODEID. -/
def Block.nodeid (b : Block) : Nat := b.f 1664 16
/-- COAL. -/
def Block.coal (b : Block) : Nat := b.f 1680 11
/-- TIMER. -/
def Block.timer (b : Block) : Nat := b.f 1696 16
/-- NSUCC. -/
def Block.nsucc (b : Block) : Nat := b.f 1712 4
/-- INBOXN. -/
def Block.inboxn (b : Block) : Nat := b.f 1716 4
/-- PREDS. -/
def Block.preds (b : Block) : Nat := b.f 1720 8
/-- SUCCj. -/
def Block.succ (b : Block) (j : Nat) : Nat := b.f (1728 + 16 * j) 16
/-- INBOX. -/
def Block.inbox (b : Block) : Nat := b.f 1856 32

/-- The successors that a block names. -/
def Block.succs (b : Block) : List Nat := (List.range b.nsucc).map b.succ

/-- Whether a role is present (R302). -/
def Block.present (b : Block) (k : Nat) : Bool := b.groupsOf k != 0

/-- The role of each group, by %group (R304). -/
def Block.roles (b : Block) : List Nat := (List.range 4).flatMap (fun k => List.replicate (b.groupsOf k) k)

/-- Teams of a cluster. -/
def Block.teams (b : Block) : Nat := b.width * b.height

/-- Bytes of one inbox slot (R320). -/
def Block.inboxSize (b : Block) : Nat := 64 + 64 * b.coal

/-! ### Slots and registers (R7, R8) -/

/-- The groups that go to a slot, by %group, from slot f (R7). -/
def Block.slotGroups (b : Block) (f slot : Nat) : List Nat := (List.range b.roles.length).filter (fun k => decide ((k + f) % 4 = slot))

/-- Register budget of a group. -/
def Block.groupBudget (b : Block) (g : Nat) : Nat := b.budget (b.roles.getD g 0)

/-- Registers of each thread's range that a slot's groups take together (R8). -/
def Block.slotRegs (b : Block) (f slot : Nat) : Nat := (b.slotGroups f slot).foldl (fun a g => a + b.groupBudget g) 0

/-- First register of a group within its slot's range. -/
def Block.groupOffset (b : Block) (f g : Nat) : Nat :=
  ((b.slotGroups f ((g + f) % 4)).filter (fun x => decide (x < g))).foldl (fun a x => a + b.groupBudget x) 0

/-! ### The checks of R303 -/

/-- The fields marked zero in R301. -/
def zeroFields : List (Nat × Nat) :=
  [(24, 8), (48, 16), (112, 16), (177, 15), (232, 24), (277, 11), (307, 13), (368, 16), (1691, 5), (1888, 160)]

/-- REASON 1: version, zero fields, absent roles and unused successors. -/
def Block.formOk (b : Block) : Bool :=
  b.f 0 8 == 1 && zeroFields.all (fun z => b.f z.1 z.2 == 0) &&
    (List.range 4).all (fun k => if b.present k then b.f (496 + 128 * k) 16 == 0 else b.f (384 + 128 * k) 128 == 0) &&
    (List.range 8).all (fun j => decide (j < b.nsucc) || b.succ j == 0)

/-- An address of the code region that is a multiple of 4. -/
def Block.inCode (b : Block) (v : Nat) : Bool := decide (b.codeBase ≤ v) && decide (v < b.codeBase + b.codeLen) && v % 4 == 0

/-- REASON 2: roles. -/
def Block.rolesOk (b : Block) : Bool :=
  !(b.present 0 && (b.present 1 || b.present 2 || b.present 3)) && decide (1 ≤ b.roles.length) && decide (b.roles.length ≤ 32) &&
    (List.range 4).all (fun k => !b.present k ||
      (decide (8 ≤ b.budget k) && decide (b.budget k ≤ 256) && b.inCode (b.entry k) && (b.handler k == 0 || b.inCode (b.handler k))))

/-- REASON 3: some slot places the groups with at most 8 per slot and budgets of at most 1,024 (R8). -/
def Block.slotsOk (b : Block) : Bool :=
  (List.range 4).any (fun f => (List.range 4).all (fun k => decide ((b.slotGroups f k).length ≤ 8) && decide (b.slotRegs f k ≤ 1024)))

/-- REASON 4: the shape (R197). -/
def Block.shapeOk (b : Block) : Bool :=
  decide (1 ≤ b.width) && decide (b.width ≤ 8) && decide (1 ≤ b.height) && decide (b.height ≤ 6) && decide (b.teams ≤ 12) && b.clusters != 0

/-- REASON 5: sizes. -/
def Block.sizesOk (b : Block) : Bool := decide (b.scratch ≤ 1048576) && b.constSize % 4096 == 0 && decide (b.constSize ≤ 262144)

/-- REASON 6, but for the pages. -/
def Block.codeOk (b : Block) : Bool :=
  b.codeBase % 256 == 0 && b.codeLen % 4 == 0 && decide (4 ≤ b.codeLen) && decide (b.codeLen ≤ 2 ^ 26) && decide (b.codeBase + b.codeLen ≤ 2 ^ 48)

/-- REASON 7: XMODE's rounding and scope codes (R24). -/
def Block.xmodeOk (b : Block) : Bool := decide (b.f 160 3 ≤ 5) && decide (b.f 166 3 ≤ 5)

/-- REASON 8: no barrier without arrivals and bytes. -/
def Block.barriersOk (b : Block) : Bool := (List.range 16).all (fun j => b.barrier j != (0, 0))

/-- REASON 10, but for what the context holds. -/
def Block.nodeOk (b : Block) : Bool :=
  decide (b.nsucc ≤ 8) && b.succs.all (· != 0) &&
    (if b.node then b.clusters == 1 && !b.stream && b.nodeid != 0 && decide (1 ≤ b.coal) && decide (b.coal ≤ 1024) && decide (1 ≤ b.inboxn) &&
        b.inbox % 256 == 0
     else b.nodeid == 0 && b.coal == 0 && b.timer == 0 && b.inboxn == 0 && b.preds == 0 && b.inbox == 0)

/-- The lowest REASON of the checks 1 to 5 that a block fails, or 0. -/
def Block.reasonLow (b : Block) : Nat :=
  if !b.formOk then 1 else if !b.rolesOk then 2 else if !b.slotsOk then 3 else if !b.shapeOk then 4 else if !b.sizesOk then 5
  else if !b.codeOk then 6 else 0

/-- The lowest REASON of the checks 7 to 10 that a block fails by itself, or 0. -/
def Block.reasonHigh (b : Block) : Nat :=
  if !b.xmodeOk then 7 else if !b.barriersOk then 8 else if 5 ≤ b.quota then 9 else if !b.nodeOk then 10 else 0

end Sys2Proof.Machine
end

