-- ==== Sys2Proof/Decode.lean ====
section
/-!
DEFINITION. Decode: from words to an instruction, total, rejecting by the DETAIL of R60 and in the order of R61; and
the encoder, written from the same tables. Every field is pulled out here, once.
-/

namespace Sys2Proof

/-- Bits [lo + n - 1 : lo] of a word. -/
abbrev fld (w : IWord) (lo n : Nat) : BitVec n := w.extractLsb' lo n

/-- What the row of the opcode table gives: the instruction, whether every bit the row marks zero is zero, and
whether a code that the constructor does not hold is assigned (MODE 3 of MTRN and MRSUM, R143). -/
structure RawInstr where
  instr : Instr
  zeros : Bool
  codes : Bool
  deriving DecidableEq, Repr


/-- The trailer (R56, R65). -/
def rawTrl (w : IWord) : Option RawInstr :=
  some ⟨.trl (fld w 20 7) (fld w 13 7) (fld w 6 7) (fld w 5 1), fld w 0 5 == 0#5, true⟩

/-- INT (R85). -/
def rawInt (w : IWord) : Option RawInstr :=
  match fld w 2 4 with
  | 0#4 => some ⟨.iadd (fld w 20 7) (fld w 13 7) (fld w 6 7) (fld w 0 2), true, true⟩
  | 1#4 => some ⟨.isub (fld w 20 7) (fld w 13 7) (fld w 6 7) (fld w 0 2), true, true⟩
  | 2#4 => some ⟨.imul (fld w 20 7) (fld w 13 7) (fld w 6 7) (fld w 0 2), true, true⟩
  | 3#4 => some ⟨.imulh (fld w 20 7) (fld w 13 7) (fld w 6 7) (fld w 0 2), true, true⟩
  | 4#4 => some ⟨.imulhn (fld w 20 7) (fld w 13 7) (fld w 6 7) (fld w 0 2), true, true⟩
  | 5#4 => some ⟨.imad (fld w 20 7) (fld w 13 7) (fld w 6 7) (fld w 0 2), true, true⟩
  | 6#4 => some ⟨.imin (fld w 20 7) (fld w 13 7) (fld w 6 7) (fld w 0 2), true, true⟩
  | 7#4 => some ⟨.imax (fld w 20 7) (fld w 13 7) (fld w 6 7) (fld w 0 2), true, true⟩
  | 8#4 => some ⟨.iminn (fld w 20 7) (fld w 13 7) (fld w 6 7) (fld w 0 2), true, true⟩
  | 9#4 => some ⟨.imaxn (fld w 20 7) (fld w 13 7) (fld w 6 7) (fld w 0 2), true, true⟩
  | 10#4 => some ⟨.shl (fld w 20 7) (fld w 13 7) (fld w 6 7) (fld w 0 2), true, true⟩
  | 11#4 => some ⟨.shr (fld w 20 7) (fld w 13 7) (fld w 6 7) (fld w 0 2), true, true⟩
  | 12#4 => some ⟨.sar (fld w 20 7) (fld w 13 7) (fld w 6 7) (fld w 0 2), true, true⟩
  | 13#4 => some ⟨.rol (fld w 20 7) (fld w 13 7) (fld w 6 7) (fld w 0 2), true, true⟩
  | 14#4 => some ⟨.ror (fld w 20 7) (fld w 13 7) (fld w 6 7) (fld w 0 2), true, true⟩
  | _ => some ⟨.icmp (fld w 24 3) (fld w 20 4) (fld w 13 7) (fld w 6 7) (fld w 0 2), true, true⟩

/-- INT2 (R89): the forms that use part of FN as a field first, then the 6-bit codes. -/
def rawInt2 (w : IWord) : Option RawInstr :=
  match fld w 3 3 with
  | 4#3 => some ⟨.wmacl (fld w 20 7) (fld w 13 7) (fld w 6 7) (fld w 0 3), true, true⟩
  | 5#3 => some ⟨.wmach (fld w 20 7) (fld w 13 7) (fld w 6 7) (fld w 0 3), true, true⟩
  | _ => match fld w 2 4 with
    | 5#4 => some ⟨.lea (fld w 20 7) (fld w 13 7) (fld w 6 7) (fld w 0 2), true, true⟩
    | 12#4 => some ⟨.iaddNatural (fld w 20 7) (fld w 13 7) (fld w 6 7) (fld w 0 2), true, true⟩
    | 13#4 => some ⟨.isubNatural (fld w 20 7) (fld w 13 7) (fld w 6 7) (fld w 0 2), true, true⟩
    | 14#4 => some ⟨.imulNatural (fld w 20 7) (fld w 13 7) (fld w 6 7) (fld w 0 2), true, true⟩
    | _ => match fld w 0 6 with
      | 0#6 => some ⟨.iaddc (fld w 20 7) (fld w 13 7) (fld w 10 3) (fld w 6 4), true, true⟩
      | 1#6 => some ⟨.isubb (fld w 20 7) (fld w 13 7) (fld w 10 3) (fld w 6 4), true, true⟩
      | 2#6 => some ⟨.ineg (fld w 20 7) (fld w 13 7) (fld w 9 1) (fld w 6 3), fld w 10 3 == 0#3, true⟩
      | 3#6 => some ⟨.iabs (fld w 20 7) (fld w 13 7) (fld w 9 1) (fld w 6 3), fld w 10 3 == 0#3, true⟩
      | 4#6 => some ⟨.popc (fld w 20 7) (fld w 13 7) (fld w 6 3), fld w 9 4 == 0#4, true⟩
      | 5#6 => some ⟨.clz (fld w 20 7) (fld w 13 7) (fld w 6 3), fld w 9 4 == 0#4, true⟩
      | 6#6 => some ⟨.ctz (fld w 20 7) (fld w 13 7) (fld w 6 3), fld w 9 4 == 0#4, true⟩
      | 7#6 => some ⟨.brev (fld w 20 7) (fld w 13 7) (fld w 6 3), fld w 9 4 == 0#4, true⟩
      | 8#6 => some ⟨.and (fld w 20 7) (fld w 13 7) (fld w 6 7), true, true⟩
      | 9#6 => some ⟨.or (fld w 20 7) (fld w 13 7) (fld w 6 7), true, true⟩
      | 10#6 => some ⟨.xor (fld w 20 7) (fld w 13 7) (fld w 6 7), true, true⟩
      | 11#6 => some ⟨.andn (fld w 20 7) (fld w 13 7) (fld w 6 7), true, true⟩
      | 12#6 => some ⟨.not (fld w 20 7) (fld w 13 7), fld w 6 7 == 0#7, true⟩
      | 13#6 => some ⟨.mov (fld w 20 7) (fld w 13 7), fld w 6 7 == 0#7, true⟩
      | 14#6 => some ⟨.sel (fld w 20 7) (fld w 13 7) (fld w 10 3) (fld w 6 4), true, true⟩
      | 15#6 => some ⟨.prmb (fld w 20 7) (fld w 13 7) (fld w 6 7), true, true⟩
      | 16#6 => some ⟨.bfxNatural (fld w 20 7) (fld w 13 7) (fld w 6 7), true, true⟩
      | 17#6 => some ⟨.bfxSigned (fld w 20 7) (fld w 13 7) (fld w 6 7), true, true⟩
      | 18#6 => some ⟨.bfi (fld w 20 7) (fld w 13 7) (fld w 6 7), true, true⟩
      | 24#6 => some ⟨.pand (fld w 20 4) (fld w 13 4) (fld w 6 4), fld w 24 3 == 0#3 && fld w 17 3 == 0#3 && fld w 10 3 == 0#3, true⟩
      | 25#6 => some ⟨.por (fld w 20 4) (fld w 13 4) (fld w 6 4), fld w 24 3 == 0#3 && fld w 17 3 == 0#3 && fld w 10 3 == 0#3, true⟩
      | 26#6 => some ⟨.pxor (fld w 20 4) (fld w 13 4) (fld w 6 4), fld w 24 3 == 0#3 && fld w 17 3 == 0#3 && fld w 10 3 == 0#3, true⟩
      | 27#6 => some ⟨.pnot (fld w 20 4) (fld w 13 4), fld w 24 3 == 0#3 && fld w 17 3 == 0#3 && fld w 6 7 == 0#7, true⟩
      | 28#6 => some ⟨.p2g (fld w 20 7) (fld w 13 4), fld w 17 3 == 0#3 && fld w 6 7 == 0#7, true⟩
      | 29#6 => some ⟨.g2p (fld w 20 4) (fld w 13 7), fld w 24 3 == 0#3 && fld w 6 7 == 0#7, true⟩
      | _ => none

/-- ADDI (R95). -/
def rawAddi (w : IWord) : Option RawInstr :=
  some ⟨.addi (fld w 20 7) (fld w 13 7) (fld w 0 13), true, true⟩

/-- LOGI (R95). -/
def rawLogi (w : IWord) : Option RawInstr :=
  match fld w 11 2 with
  | 0#2 => some ⟨.andImmediate (fld w 20 7) (fld w 13 7) (fld w 0 11), true, true⟩
  | 1#2 => some ⟨.orImmediate (fld w 20 7) (fld w 13 7) (fld w 0 11), true, true⟩
  | 2#2 => some ⟨.xorImmediate (fld w 20 7) (fld w 13 7) (fld w 0 11), true, true⟩
  | _ => some ⟨.andnImmediate (fld w 20 7) (fld w 13 7) (fld w 0 11), true, true⟩

/-- SHI (R95). -/
def rawShi (w : IWord) : Option RawInstr :=
  match fld w 10 3 with
  | 0#3 => some ⟨.shlImmediate (fld w 20 7) (fld w 13 7) (fld w 0 6), fld w 6 4 == 0#4, true⟩
  | 1#3 => some ⟨.shrImmediate (fld w 20 7) (fld w 13 7) (fld w 0 6), fld w 6 4 == 0#4, true⟩
  | 2#3 => some ⟨.sarImmediate (fld w 20 7) (fld w 13 7) (fld w 0 6), fld w 6 4 == 0#4, true⟩
  | 3#3 => some ⟨.rolImmediate (fld w 20 7) (fld w 13 7) (fld w 0 6), fld w 6 4 == 0#4, true⟩
  | 4#3 => some ⟨.rorImmediate (fld w 20 7) (fld w 13 7) (fld w 0 6), fld w 6 4 == 0#4, true⟩
  | 5#3 => some ⟨.bfxImmediateNatural (fld w 20 7) (fld w 13 7) (fld w 6 4) (fld w 0 6), true, true⟩
  | 6#3 => some ⟨.bfxImmediateSigned (fld w 20 7) (fld w 13 7) (fld w 6 4) (fld w 0 6), true, true⟩
  | _ => none

/-- CMPI (R88). -/
def rawCmpi (w : IWord) : Option RawInstr :=
  some ⟨.cmpi (fld w 24 3) (fld w 20 4) (fld w 13 7) (fld w 0 13), true, true⟩

/-- LUI (R95). -/
def rawLui (w : IWord) : Option RawInstr :=
  some ⟨.lui (fld w 20 7) (fld w 0 20), true, true⟩

/-- FPA (R96). -/
def rawFpa (w : IWord) : Option RawInstr :=
  match fld w 2 4 with
  | 0#4 => some ⟨.fadd (fld w 20 7) (fld w 13 7) (fld w 6 7) (fld w 0 2), true, true⟩
  | 1#4 => some ⟨.fsub (fld w 20 7) (fld w 13 7) (fld w 6 7) (fld w 0 2), true, true⟩
  | 2#4 => some ⟨.fmul (fld w 20 7) (fld w 13 7) (fld w 6 7) (fld w 0 2), true, true⟩
  | 3#4 => some ⟨.ffma (fld w 20 7) (fld w 13 7) (fld w 6 7) (fld w 0 2), true, true⟩
  | 4#4 => some ⟨.ffms (fld w 20 7) (fld w 13 7) (fld w 6 7) (fld w 0 2), true, true⟩
  | 5#4 => some ⟨.fnma (fld w 20 7) (fld w 13 7) (fld w 6 7) (fld w 0 2), true, true⟩
  | 6#4 => some ⟨.fabs (fld w 20 7) (fld w 13 7) (fld w 0 2), fld w 6 7 == 0#7, true⟩
  | 7#4 => some ⟨.fneg (fld w 20 7) (fld w 13 7) (fld w 0 2), fld w 6 7 == 0#7, true⟩
  | 8#4 => some ⟨.fcps (fld w 20 7) (fld w 13 7) (fld w 6 7) (fld w 0 2), true, true⟩
  | _ => none

/-- FPC (R99). -/
def rawFpc (w : IWord) : Option RawInstr :=
  match fld w 2 4 with
  | 0#4 => some ⟨.fcmp (fld w 24 3) (fld w 20 4) (fld w 13 7) (fld w 6 7) (fld w 0 2), true, true⟩
  | 1#4 => some ⟨.fclass (fld w 20 4) (fld w 13 7) (fld w 6 7) (fld w 0 2), fld w 24 3 == 0#3, true⟩
  | 2#4 => some ⟨.fmin (fld w 20 7) (fld w 13 7) (fld w 6 7) (fld w 0 2), true, true⟩
  | 3#4 => some ⟨.fmax (fld w 20 7) (fld w 13 7) (fld w 6 7) (fld w 0 2), true, true⟩
  | _ => none

/-- CVT (R100). -/
def rawCvt (w : IWord) : Option RawInstr :=
  match fld w 4 2 with
  | 0#2 => some ⟨.cvt (fld w 20 7) (fld w 13 7) (fld w 10 3) (fld w 6 4) (fld w 0 4), true, true⟩
  | 1#2 => some ⟨.cvts (fld w 20 7) (fld w 13 7) (fld w 10 3) (fld w 6 4) (fld w 0 4), true, true⟩
  | 2#2 => some ⟨.seed (fld w 13 7), fld w 20 7 == 0#7 && fld w 6 7 == 0#7 && fld w 0 4 == 0#4, true⟩
  | _ => some ⟨.rnd (fld w 20 7), fld w 6 14 == 0#14 && fld w 0 4 == 0#4, true⟩

/-- SFU (R105). -/
def rawSfu (w : IWord) : Option RawInstr :=
  match fld w 6 7 with
  | 0#7 => some ⟨.fdiv (fld w 20 7) (fld w 13 7) (fld w 2 4) (fld w 0 2), true, true⟩
  | 1#7 => some ⟨.fsqrt (fld w 20 7) (fld w 13 7) (fld w 2 4) (fld w 0 2), true, true⟩
  | 2#7 => some ⟨.exp2 (fld w 20 7) (fld w 13 7) (fld w 2 4) (fld w 0 2), true, true⟩
  | 3#7 => some ⟨.log2 (fld w 20 7) (fld w 13 7) (fld w 2 4) (fld w 0 2), true, true⟩
  | 4#7 => some ⟨.rcp (fld w 20 7) (fld w 13 7) (fld w 2 4) (fld w 0 2), true, true⟩
  | 5#7 => some ⟨.rsq (fld w 20 7) (fld w 13 7) (fld w 2 4) (fld w 0 2), true, true⟩
  | 6#7 => some ⟨.sin (fld w 20 7) (fld w 13 7) (fld w 2 4) (fld w 0 2), true, true⟩
  | 7#7 => some ⟨.cos (fld w 20 7) (fld w 13 7) (fld w 2 4) (fld w 0 2), true, true⟩
  | 8#7 => some ⟨.tanh (fld w 20 7) (fld w 13 7) (fld w 2 4) (fld w 0 2), true, true⟩
  | 9#7 => some ⟨.sigm (fld w 20 7) (fld w 13 7) (fld w 2 4) (fld w 0 2), true, true⟩
  | 10#7 => some ⟨.sftp (fld w 20 7) (fld w 13 7) (fld w 2 4) (fld w 0 2), true, true⟩
  | 16#7 => some ⟨.idivSigned (fld w 20 7) (fld w 13 7) (fld w 2 4) (fld w 0 2), true, true⟩
  | 17#7 => some ⟨.idivNatural (fld w 20 7) (fld w 13 7) (fld w 2 4) (fld w 0 2), true, true⟩
  | 18#7 => some ⟨.iremSigned (fld w 20 7) (fld w 13 7) (fld w 2 4) (fld w 0 2), true, true⟩
  | 19#7 => some ⟨.iremNatural (fld w 20 7) (fld w 13 7) (fld w 2 4) (fld w 0 2), true, true⟩
  | _ => none

/-- XL (R109): FN, and for FN 0 also B[6:5]; VOTE of kind 3 is the ballot. -/
def rawXl (w : IWord) : Option RawInstr :=
  match fld w 0 2 with
  | 1#2 => some ⟨.reduce (fld w 20 7) (fld w 13 7) (fld w 12 1) (fld w 8 4) (fld w 6 2) (fld w 2 4), true, true⟩
  | 2#2 => some ⟨.scanInclusive (fld w 20 7) (fld w 13 7) (fld w 12 1) (fld w 8 4) (fld w 6 2) (fld w 2 4), true, true⟩
  | 3#2 => some ⟨.scanExclusive (fld w 20 7) (fld w 13 7) (fld w 12 1) (fld w 8 4) (fld w 6 2) (fld w 2 4), true, true⟩
  | _ => match fld w 11 2 with
    | 0#2 => some ⟨.shfl (fld w 20 7) (fld w 13 7) (fld w 9 2) (fld w 6 3) (fld w 2 4), true, true⟩
    | 1#2 => some ⟨.bcast (fld w 20 7) (fld w 13 7) (fld w 6 5) (fld w 2 4), true, true⟩
    | 2#2 => match fld w 6 2 with
      | 3#2 => some ⟨.voteBallot (fld w 20 7) (fld w 13 4) (fld w 2 4), fld w 17 3 == 0#3 && fld w 8 3 == 0#3, true⟩
      | _ => some ⟨.vote (fld w 20 4) (fld w 13 4) (fld w 6 2) (fld w 2 4), fld w 24 3 == 0#3 && fld w 17 3 == 0#3 && fld w 8 3 == 0#3, true⟩
    | _ => some ⟨.matchLanes (fld w 20 7) (fld w 13 7) (fld w 2 4), fld w 6 5 == 0#5, true⟩

/-- MCON (R143, R146); MODE 3 outside MTOK is an unassigned code. -/
def rawMcon (w v : IWord) : Option RawInstr :=
  match fld w 0 2 with
  | 0#2 => some ⟨.mtrn (fld w 20 7) (fld w 6 7) (fld w 2 4) (fld v 10 3) (fld v 6 4),
      fld w 13 7 == 0#7 && fld v 23 4 == 0#4 && fld v 13 10 == 0#10 && fld v 5 1 == 0#1 && fld v 3 2 == 0#2 && fld v 0 3 == 0#3,
      fld v 3 2 != 3#2⟩
  | 1#2 => some ⟨.mperm (fld w 20 7) (fld w 6 7) (fld w 2 4) (fld v 23 4) (fld v 10 3) (fld v 6 4) (fld v 5 1) (fld v 3 2),
      fld w 13 7 == 0#7 && fld v 13 10 == 0#10 && fld v 0 3 == 0#3, true⟩
  | 2#2 => some ⟨.mrsum (fld w 20 7) (fld w 6 7) (fld w 2 4) (fld v 10 3) (fld v 6 4) (fld v 5 1),
      fld w 13 7 == 0#7 && fld v 23 4 == 0#4 && fld v 13 10 == 0#10 && fld v 3 2 == 0#2 && fld v 0 3 == 0#3,
      fld v 3 2 != 3#2⟩
  | _ => some ⟨.mtok (fld v 10 3) (fld v 6 4),
      fld w 20 7 == 0#7 && fld w 13 7 == 0#7 && fld w 6 7 == 0#7 && fld w 2 4 == 0#4 && fld v 13 14 == 0#14 && fld v 0 6 == 0#6, true⟩

/-- LDS (R159). -/
def rawLds (w : IWord) : Option RawInstr :=
  some ⟨.lds (fld w 20 7) (fld w 13 7) (fld w 7 6) (fld w 4 3) (fld w 0 4), true, true⟩

/-- LDT (R159). -/
def rawLdt (w : IWord) : Option RawInstr :=
  some ⟨.ldt (fld w 20 7) (fld w 13 7) (fld w 7 6) (fld w 4 3) (fld w 0 4), true, true⟩

/-- LDC (R159). -/
def rawLdc (w : IWord) : Option RawInstr :=
  some ⟨.ldc (fld w 20 7) (fld w 13 7) (fld w 7 6) (fld w 4 3) (fld w 0 4), true, true⟩

/-- LDX (R159). -/
def rawLdx (w : IWord) : Option RawInstr :=
  some ⟨.ldx (fld w 20 7) (fld w 13 7) (fld w 7 6) (fld w 4 3) (fld w 0 4), true, true⟩

/-- ST (R160). -/
def rawSt (w : IWord) : Option RawInstr :=
  some ⟨.st (fld w 20 7) (fld w 13 7) (fld w 7 6) (fld w 4 3) (fld w 2 2) (fld w 0 1), fld w 1 1 == 0#1, true⟩

/-- SYNC (R168). -/
def rawSync (w : IWord) : Option RawInstr :=
  match fld w 0 6 with
  | 0#6 => some ⟨.fence (fld w 22 3) (fld w 20 2), fld w 25 2 == 0#2 && fld w 6 14 == 0#14, true⟩
  | 1#6 => some ⟨.binit (fld w 20 4) (fld w 13 7), fld w 24 3 == 0#3 && fld w 6 7 == 0#7, true⟩
  | 2#6 => some ⟨.barr (fld w 20 7) (fld w 10 1) (fld w 6 4), fld w 11 9 == 0#9, true⟩
  | 3#6 => some ⟨.bexp (fld w 25 1) (fld w 24 1) (fld w 20 4) (fld w 13 7), fld w 26 1 == 0#1 && fld w 6 7 == 0#7, true⟩
  | 4#6 => some ⟨.bwait (fld w 20 4) (fld w 13 7) (fld w 10 1) (fld w 6 4), fld w 24 3 == 0#3 && fld w 11 2 == 0#2, true⟩
  | 5#6 => some ⟨.bqry (fld w 20 7) (fld w 12 1) (fld w 10 2) (fld w 6 4), fld w 13 7 == 0#7, true⟩
  | 6#6 => some ⟨.cbar (fld w 20 7) (fld w 10 1) (fld w 6 4), fld w 11 9 == 0#9, true⟩
  | 7#6 => some ⟨.course (fld w 20 4), fld w 24 3 == 0#3 && fld w 6 14 == 0#14, true⟩
  | 8#6 => some ⟨.kwait (fld w 20 7) (fld w 8 2) (fld w 6 2), fld w 10 10 == 0#10, true⟩
  | 9#6 => some ⟨.srinit (fld w 22 4) (fld w 20 2) (fld w 13 7) (fld w 9 2) (fld w 6 3), fld w 26 1 == 0#1 && fld w 11 2 == 0#2, true⟩
  | 10#6 => some ⟨.sracq (fld w 20 4) (fld w 13 7) (fld w 6 2), fld w 24 3 == 0#3 && fld w 8 5 == 0#5, true⟩
  | 11#6 => some ⟨.srput (fld w 23 1) (fld w 22 1) (fld w 20 2) (fld w 13 7) (fld w 6 7), fld w 24 3 == 0#3, true⟩
  | 12#6 => some ⟨.srget (fld w 20 4) (fld w 13 7) (fld w 6 2), fld w 24 3 == 0#3 && fld w 8 5 == 0#5, true⟩
  | 13#6 => some ⟨.srrel (fld w 22 1) (fld w 20 2) (fld w 13 7), fld w 23 4 == 0#4 && fld w 6 7 == 0#7, true⟩
  | 14#6 => some ⟨.srclose (fld w 20 2), fld w 22 5 == 0#5 && fld w 6 14 == 0#14, true⟩
  | 15#6 => some ⟨.cvset (fld w 13 7) (fld w 6 3), fld w 20 7 == 0#7 && fld w 9 4 == 0#4, true⟩
  | 16#6 => some ⟨.sign (fld w 6 3), fld w 9 18 == 0#18, true⟩
  | 17#6 => some ⟨.cvwait (fld w 6 3), fld w 9 18 == 0#18, true⟩
  | 18#6 => some ⟨.lock (fld w 13 7) (fld w 6 4), fld w 20 7 == 0#7 && fld w 10 3 == 0#3, true⟩
  | 19#6 => some ⟨.unlock (fld w 13 7), fld w 20 7 == 0#7 && fld w 6 7 == 0#7, true⟩
  | _ => none

/-- CMD (R188). -/
def rawCmd (w : IWord) : Option RawInstr :=
  match fld w 0 2 with
  | 0#2 => some ⟨.cpost (fld w 20 7) (fld w 13 7) (fld w 2 4), fld w 6 7 == 0#7, true⟩
  | 1#2 => some ⟨.tpost (fld w 13 7), fld w 20 7 == 0#7 && fld w 2 11 == 0#11, true⟩
  | 2#2 => if fld w 12 1 == 0#1 then some ⟨.freeze (fld w 13 7) (fld w 6 4), fld w 20 7 == 0#7 && fld w 10 2 == 0#2 && fld w 2 4 == 0#4, true⟩
    else some ⟨.thaw (fld w 13 7) (fld w 6 4), fld w 20 7 == 0#7 && fld w 10 2 == 0#2 && fld w 2 4 == 0#4, true⟩
  | _ => if fld w 6 1 == 0#1 then some ⟨.rgqry (fld w 20 7) (fld w 13 7) (fld w 2 4), fld w 7 6 == 0#6, true⟩
    else some ⟨.gwqry (fld w 20 7) (fld w 13 7) (fld w 2 4), fld w 7 6 == 0#6, true⟩

/-- BR and CALL (R116). -/
def rawBr (w : IWord) : Option RawInstr :=
  match fld w 20 2 with
  | 0#2 => some ⟨.br (fld w 23 4) (fld w 22 1) (fld w 0 20), true, true⟩
  | 1#2 => some ⟨.call (fld w 23 4) (fld w 22 1) (fld w 0 20), true, true⟩
  | _ => none

/-- CTL (R117). -/
def rawCtl (w : IWord) : Option RawInstr :=
  match fld w 0 6 with
  | 0#6 => some ⟨.nop, fld w 6 21 == 0#21, true⟩
  | 1#6 => some ⟨.yield, fld w 6 21 == 0#21, true⟩
  | 2#6 => some ⟨.exit, fld w 6 21 == 0#21, true⟩
  | 3#6 => some ⟨.ret, fld w 6 21 == 0#21, true⟩
  | 4#6 => some ⟨.retTrap, fld w 6 21 == 0#21, true⟩
  | 5#6 => some ⟨.jmpr (fld w 13 7), fld w 20 7 == 0#7 && fld w 6 7 == 0#7, true⟩
  | 6#6 => some ⟨.trap (fld w 6 16), fld w 22 5 == 0#5, true⟩
  | 7#6 => some ⟨.tfence, fld w 6 21 == 0#21, true⟩
  | 8#6 => some ⟨.bkpt, fld w 6 21 == 0#21, true⟩
  | 9#6 => some ⟨.win (fld w 6 5), fld w 11 16 == 0#16, true⟩
  | 10#6 => some ⟨.srd (fld w 20 7) (fld w 6 6), fld w 12 8 == 0#8, true⟩
  | 11#6 => some ⟨.swr (fld w 13 7) (fld w 6 6), fld w 20 7 == 0#7 && fld w 12 1 == 0#1, true⟩
  | 12#6 => some ⟨.fstc (fld w 20 7), fld w 6 14 == 0#14, true⟩
  | _ => none

/-- The instruction that the word `w`, with `v` after it, selects; none for a reserved major or an unassigned FN,
function code or KIND (R60, DETAIL 0). The trailer is decoded here too. -/
def rawDecode (w v : IWord) : Option RawInstr :=
  match fld w 27 5 with
  | 0x01#5 => rawTrl w
  | 0x03#5 => rawInt w
  | 0x04#5 => rawInt2 w
  | 0x05#5 => rawAddi w
  | 0x06#5 => rawLogi w
  | 0x07#5 => rawShi w
  | 0x08#5 => rawCmpi w
  | 0x09#5 => rawLui w
  | 0x0A#5 => rawFpa w
  | 0x0B#5 => rawFpc w
  | 0x0C#5 => rawCvt w
  | 0x0D#5 => rawSfu w
  | 0x0E#5 => rawXl w
  | 0x0F#5 => some ⟨.mma (fld w 20 7) (fld w 13 7) (fld w 6 7) (fld w 2 4) (fld w 1 1) (fld w 0 1) (fld v 20 7) (fld v 13 7) (fld v 10 3) (fld v 6 4) (fld v 2 4), fld v 0 2 == 0#2, true⟩
  | 0x10#5 => some ⟨.mmas (fld w 20 7) (fld w 13 7) (fld w 6 7) (fld w 2 4) (fld w 1 1) (fld w 0 1) (fld v 20 7) (fld v 13 7) (fld v 10 3) (fld v 6 4) (fld v 2 4) (fld v 0 2), true, true⟩
  | 0x11#5 => rawMcon w v
  | 0x12#5 => some ⟨.mvt (fld w 20 7) (fld w 13 7) (fld w 6 7) (fld w 2 4) (fld w 1 1) (fld w 0 1) (fld v 23 4) (fld v 19 4) (fld v 6 13), fld v 0 6 == 0#6, true⟩
  | 0x13#5 => rawLds w
  | 0x14#5 => rawLdt w
  | 0x15#5 => rawLdc w
  | 0x16#5 => rawLdx w
  | 0x17#5 => rawSt w
  | 0x18#5 => some ⟨.atom (fld w 20 7) (fld w 13 7) (fld w 6 7) (fld w 2 4) (fld w 0 2) (fld v 25 2) (fld v 21 4) (fld v 17 4) (fld v 6 6), fld v 12 5 == 0#5 && fld v 0 6 == 0#6, true⟩
  | 0x19#5 => rawSync w
  | 0x1A#5 => rawCmd w
  | 0x1B#5 => rawBr w
  | 0x1C#5 => rawCtl w
  | _ => none

/-- A decoded word: an instruction, or an illegal-instruction trap with a DETAIL (R28, R60). -/
inductive Decoded where
  | ok (i : Instr)
  | illegal (detail : Nat)
  deriving DecidableEq, Repr

/-- Decoding a word with the word after it, in the order of R61: a reserved code of the word alone, the descriptor's
tag, a reserved code that involves the descriptor, a reserved field. -/
def decodeWords (w v : IWord) : Decoded :=
  match rawDecode w v with
  | none => .illegal 0
  | some r =>
    if !r.instr.wordCodeOk then .illegal 0
    else if r.instr.isPair && fld v 27 5 != 0x1D#5 then .illegal 1
    else if !(r.codes && r.instr.descCodeOk) then .illegal 0
    else if !(r.zeros && r.instr.fieldOk) then .illegal 1
    else .ok r.instr

/-- A prefix word (R73, R74): its fields, and whether its reserved bits are zero. -/
def decodePfx (w : IWord) : Pfx × Bool :=
  if fld w 26 1 == 0#1 then
    (.arith (fld w 22 4) (fld w 21 1) (fld w 18 3) (fld w 17 1) (fld w 16 1) (fld w 15 1), fld w 0 15 == 0#15)
  else
    (.mem (fld w 22 4) (fld w 21 1) (fld w 19 2) (fld w 16 3) (fld w 14 2) (fld w 13 1) (fld w 0 12), fld w 12 1 == 0#1)

/-- The word of a prefix. -/
def encodePfx : Pfx → IWord
  | .arith gp gn rnd sat ftz nft => 2#5 ++ 0#1 ++ gp ++ gn ++ rnd ++ sat ++ ftz ++ nft ++ 0#15
  | .mem gp gn order scope cache consume offx => 2#5 ++ 1#1 ++ gp ++ gn ++ order ++ scope ++ cache ++ consume ++ 0#1 ++ offx

/-- What a fetch finds at a PC that starts an instruction (R55, R72): the prefix when there is one, the instruction,
and the number of words. The whole fetch is decided by three words. -/
structure Fetched where
  pfx : Option Pfx
  instr : Instr
  words : Nat
  deriving DecidableEq, Repr

/-- The fetch of an instruction from three words (R60, R61, R72): prefix misuse first, then the codes and fields of
the pair, the prefix's own fields among the reserved fields. -/
def decodeFetch (w0 w1 w2 : IWord) : Except Nat Fetched :=
  if fld w0 27 5 == 2#5 then
    let (p, z) := decodePfx w0
    if !p.fits (fld w1 27 5).toNat then .error 2
    else match decodeWords w1 w2 with
      | .illegal d => .error d
      | .ok i => if z && p.fieldsOk then .ok ⟨some p, i, 1 + i.words⟩ else .error 1
  else match decodeWords w0 w1 with
    | .illegal d => .error d
    | .ok i => .ok ⟨none, i, i.words⟩

/-- A word from its four bytes, little-endian (R55). -/
def wordOfBytes (b0 b1 b2 b3 : Byte) : IWord := b3 ++ b2 ++ b1 ++ b0

/-- Decoding total on any bytes: too few for the instruction is the code bound, reported as none. -/
def decodeBytes : List Byte → Option Decoded
  | b0 :: b1 :: b2 :: b3 :: rest =>
    match rest with
    | c0 :: c1 :: c2 :: c3 :: _ => some (decodeWords (wordOfBytes b0 b1 b2 b3) (wordOfBytes c0 c1 c2 c3))
    | _ => some (decodeWords (wordOfBytes b0 b1 b2 b3) 0)
  | _ => none


/-- The words of an instruction, written from the encoding tables (R56 to R58, R85 to R117, R135 to R188); an event
of the other agents has none. -/
def encode (i : Instr) : List IWord :=
  match i with
  | .trl f s t a => [1#5 ++ f ++ s ++ t ++ a ++ 0#5]
  | .iadd d a b w => [3#5 ++ d ++ a ++ b ++ 0#4 ++ w]
  | .isub d a b w => [3#5 ++ d ++ a ++ b ++ 1#4 ++ w]
  | .imul d a b w => [3#5 ++ d ++ a ++ b ++ 2#4 ++ w]
  | .imulh d a b w => [3#5 ++ d ++ a ++ b ++ 3#4 ++ w]
  | .imulhn d a b w => [3#5 ++ d ++ a ++ b ++ 4#4 ++ w]
  | .imad d a b w => [3#5 ++ d ++ a ++ b ++ 5#4 ++ w]
  | .imin d a b w => [3#5 ++ d ++ a ++ b ++ 6#4 ++ w]
  | .imax d a b w => [3#5 ++ d ++ a ++ b ++ 7#4 ++ w]
  | .iminn d a b w => [3#5 ++ d ++ a ++ b ++ 8#4 ++ w]
  | .imaxn d a b w => [3#5 ++ d ++ a ++ b ++ 9#4 ++ w]
  | .shl d a b w => [3#5 ++ d ++ a ++ b ++ 10#4 ++ w]
  | .shr d a b w => [3#5 ++ d ++ a ++ b ++ 11#4 ++ w]
  | .sar d a b w => [3#5 ++ d ++ a ++ b ++ 12#4 ++ w]
  | .rol d a b w => [3#5 ++ d ++ a ++ b ++ 13#4 ++ w]
  | .ror d a b w => [3#5 ++ d ++ a ++ b ++ 14#4 ++ w]
  | .icmp c p a b w => [3#5 ++ c ++ p ++ a ++ b ++ 15#4 ++ w]
  | .iaddc d a w c => [4#5 ++ d ++ a ++ w ++ c ++ 0#6]
  | .isubb d a w c => [4#5 ++ d ++ a ++ w ++ c ++ 1#6]
  | .ineg d a n w => [4#5 ++ d ++ a ++ 0#3 ++ n ++ w ++ 2#6]
  | .iabs d a n w => [4#5 ++ d ++ a ++ 0#3 ++ n ++ w ++ 3#6]
  | .popc d a w => [4#5 ++ d ++ a ++ 0#4 ++ w ++ 4#6]
  | .clz d a w => [4#5 ++ d ++ a ++ 0#4 ++ w ++ 5#6]
  | .ctz d a w => [4#5 ++ d ++ a ++ 0#4 ++ w ++ 6#6]
  | .brev d a w => [4#5 ++ d ++ a ++ 0#4 ++ w ++ 7#6]
  | .and d a b => [4#5 ++ d ++ a ++ b ++ 8#6]
  | .or d a b => [4#5 ++ d ++ a ++ b ++ 9#6]
  | .xor d a b => [4#5 ++ d ++ a ++ b ++ 10#6]
  | .andn d a b => [4#5 ++ d ++ a ++ b ++ 11#6]
  | .not d a => [4#5 ++ d ++ a ++ 0#7 ++ 12#6]
  | .mov d a => [4#5 ++ d ++ a ++ 0#7 ++ 13#6]
  | .sel d a w c => [4#5 ++ d ++ a ++ w ++ c ++ 14#6]
  | .prmb d a b => [4#5 ++ d ++ a ++ b ++ 15#6]
  | .bfxNatural d a b => [4#5 ++ d ++ a ++ b ++ 16#6]
  | .bfxSigned d a b => [4#5 ++ d ++ a ++ b ++ 17#6]
  | .bfi d a b => [4#5 ++ d ++ a ++ b ++ 18#6]
  | .lea d a b k => [4#5 ++ d ++ a ++ b ++ 5#4 ++ k]
  | .pand d a b => [4#5 ++ 0#3 ++ d ++ 0#3 ++ a ++ 0#3 ++ b ++ 24#6]
  | .por d a b => [4#5 ++ 0#3 ++ d ++ 0#3 ++ a ++ 0#3 ++ b ++ 25#6]
  | .pxor d a b => [4#5 ++ 0#3 ++ d ++ 0#3 ++ a ++ 0#3 ++ b ++ 26#6]
  | .pnot d a => [4#5 ++ 0#3 ++ d ++ 0#3 ++ a ++ 0#7 ++ 27#6]
  | .p2g d a => [4#5 ++ d ++ 0#3 ++ a ++ 0#7 ++ 28#6]
  | .g2p d a => [4#5 ++ 0#3 ++ d ++ a ++ 0#7 ++ 29#6]
  | .wmacl d a b c => [4#5 ++ d ++ a ++ b ++ 4#3 ++ c]
  | .wmach d a b c => [4#5 ++ d ++ a ++ b ++ 5#3 ++ c]
  | .iaddNatural d a b w => [4#5 ++ d ++ a ++ b ++ 12#4 ++ w]
  | .isubNatural d a b w => [4#5 ++ d ++ a ++ b ++ 13#4 ++ w]
  | .imulNatural d a b w => [4#5 ++ d ++ a ++ b ++ 14#4 ++ w]
  | .addi d a i => [5#5 ++ d ++ a ++ i]
  | .andImmediate d a i => [6#5 ++ d ++ a ++ 0#2 ++ i]
  | .orImmediate d a i => [6#5 ++ d ++ a ++ 1#2 ++ i]
  | .xorImmediate d a i => [6#5 ++ d ++ a ++ 2#2 ++ i]
  | .andnImmediate d a i => [6#5 ++ d ++ a ++ 3#2 ++ i]
  | .shlImmediate d a k => [7#5 ++ d ++ a ++ 0#3 ++ 0#4 ++ k]
  | .shrImmediate d a k => [7#5 ++ d ++ a ++ 1#3 ++ 0#4 ++ k]
  | .sarImmediate d a k => [7#5 ++ d ++ a ++ 2#3 ++ 0#4 ++ k]
  | .rolImmediate d a k => [7#5 ++ d ++ a ++ 3#3 ++ 0#4 ++ k]
  | .rorImmediate d a k => [7#5 ++ d ++ a ++ 4#3 ++ 0#4 ++ k]
  | .bfxImmediateNatural d a l p => [7#5 ++ d ++ a ++ 5#3 ++ l ++ p]
  | .bfxImmediateSigned d a l p => [7#5 ++ d ++ a ++ 6#3 ++ l ++ p]
  | .cmpi c p a i => [8#5 ++ c ++ p ++ a ++ i]
  | .lui d i => [9#5 ++ d ++ i]
  | .fadd d a b t => [10#5 ++ d ++ a ++ b ++ 0#4 ++ t]
  | .fsub d a b t => [10#5 ++ d ++ a ++ b ++ 1#4 ++ t]
  | .fmul d a b t => [10#5 ++ d ++ a ++ b ++ 2#4 ++ t]
  | .ffma d a b t => [10#5 ++ d ++ a ++ b ++ 3#4 ++ t]
  | .ffms d a b t => [10#5 ++ d ++ a ++ b ++ 4#4 ++ t]
  | .fnma d a b t => [10#5 ++ d ++ a ++ b ++ 5#4 ++ t]
  | .fabs d a t => [10#5 ++ d ++ a ++ 0#7 ++ 6#4 ++ t]
  | .fneg d a t => [10#5 ++ d ++ a ++ 0#7 ++ 7#4 ++ t]
  | .fcps d a b t => [10#5 ++ d ++ a ++ b ++ 8#4 ++ t]
  | .fcmp c p a b t => [11#5 ++ c ++ p ++ a ++ b ++ 0#4 ++ t]
  | .fclass p a m t => [11#5 ++ 0#3 ++ p ++ a ++ m ++ 1#4 ++ t]
  | .fmin d a b t => [11#5 ++ d ++ a ++ b ++ 2#4 ++ t]
  | .fmax d a b t => [11#5 ++ d ++ a ++ b ++ 3#4 ++ t]
  | .cvt d a p s t => [12#5 ++ d ++ a ++ p ++ s ++ 0#2 ++ t]
  | .cvts d a p s t => [12#5 ++ d ++ a ++ p ++ s ++ 1#2 ++ t]
  | .seed a => [12#5 ++ 0#7 ++ a ++ 0#7 ++ 2#2 ++ 0#4]
  | .rnd d => [12#5 ++ d ++ 0#14 ++ 3#2 ++ 0#4]
  | .fdiv d a l t => [13#5 ++ d ++ a ++ 0#7 ++ l ++ t]
  | .fsqrt d a l t => [13#5 ++ d ++ a ++ 1#7 ++ l ++ t]
  | .exp2 d a l t => [13#5 ++ d ++ a ++ 2#7 ++ l ++ t]
  | .log2 d a l t => [13#5 ++ d ++ a ++ 3#7 ++ l ++ t]
  | .rcp d a l t => [13#5 ++ d ++ a ++ 4#7 ++ l ++ t]
  | .rsq d a l t => [13#5 ++ d ++ a ++ 5#7 ++ l ++ t]
  | .sin d a l t => [13#5 ++ d ++ a ++ 6#7 ++ l ++ t]
  | .cos d a l t => [13#5 ++ d ++ a ++ 7#7 ++ l ++ t]
  | .tanh d a l t => [13#5 ++ d ++ a ++ 8#7 ++ l ++ t]
  | .sigm d a l t => [13#5 ++ d ++ a ++ 9#7 ++ l ++ t]
  | .sftp d a l t => [13#5 ++ d ++ a ++ 10#7 ++ l ++ t]
  | .idivSigned d a l w => [13#5 ++ d ++ a ++ 16#7 ++ l ++ w]
  | .idivNatural d a l w => [13#5 ++ d ++ a ++ 17#7 ++ l ++ w]
  | .iremSigned d a l w => [13#5 ++ d ++ a ++ 18#7 ++ l ++ w]
  | .iremNatural d a l w => [13#5 ++ d ++ a ++ 19#7 ++ l ++ w]
  | .shfl d a m w l => [14#5 ++ d ++ a ++ 0#2 ++ m ++ w ++ l ++ 0#2]
  | .bcast d a s l => [14#5 ++ d ++ a ++ 1#2 ++ s ++ l ++ 0#2]
  | .vote d a k l => [14#5 ++ 0#3 ++ d ++ 0#3 ++ a ++ 2#2 ++ 0#3 ++ k ++ l ++ 0#2]
  | .voteBallot d a l => [14#5 ++ d ++ 0#3 ++ a ++ 2#2 ++ 0#3 ++ 3#2 ++ l ++ 0#2]
  | .matchLanes d a l => [14#5 ++ d ++ a ++ 3#2 ++ 0#5 ++ l ++ 0#2]
  | .reduce d a s o w l => [14#5 ++ d ++ a ++ s ++ o ++ w ++ l ++ 1#2]
  | .scanInclusive d a s o w l => [14#5 ++ d ++ a ++ s ++ o ++ w ++ l ++ 2#2]
  | .scanExclusive d a s o w l => [14#5 ++ d ++ a ++ s ++ o ++ w ++ l ++ 3#2]
  | .mma d a b l sc z sa sb cv ta tb => [15#5 ++ d ++ a ++ b ++ l ++ sc ++ z, 0x1D#5 ++ sa ++ sb ++ cv ++ ta ++ tb ++ 0#2]
  | .mmas d a b l sc z sa sb cv ta tb pat => [16#5 ++ d ++ a ++ b ++ l ++ sc ++ z, 0x1D#5 ++ sa ++ sb ++ cv ++ ta ++ tb ++ pat]
  | .mtrn d b l cv t => [17#5 ++ d ++ 0#7 ++ b ++ l ++ 0#2, 0x1D#5 ++ 0#4 ++ 0#10 ++ cv ++ t ++ 0#1 ++ 0#2 ++ 0#3]
  | .mperm d b l amt cv t axis mode => [17#5 ++ d ++ 0#7 ++ b ++ l ++ 1#2, 0x1D#5 ++ amt ++ 0#10 ++ cv ++ t ++ axis ++ mode ++ 0#3]
  | .mrsum d b l cv t axis => [17#5 ++ d ++ 0#7 ++ b ++ l ++ 2#2, 0x1D#5 ++ 0#4 ++ 0#10 ++ cv ++ t ++ axis ++ 0#2 ++ 0#3]
  | .mtok cv rcv => [17#5 ++ 0#7 ++ 0#7 ++ 0#7 ++ 0#4 ++ 3#2, 0x1D#5 ++ 0#14 ++ cv ++ rcv ++ 0#6]
  | .mvt d a b l bfw z mm kk off => [18#5 ++ d ++ a ++ b ++ l ++ bfw ++ z, 0x1D#5 ++ mm ++ kk ++ off ++ 0#6]
  | .lds d b o s l => [19#5 ++ d ++ b ++ o ++ s ++ l]
  | .ldt d b o s l => [20#5 ++ d ++ b ++ o ++ s ++ l]
  | .ldc d b o s l => [21#5 ++ d ++ b ++ o ++ s ++ l]
  | .ldx d b o s l => [22#5 ++ d ++ b ++ o ++ s ++ l]
  | .st d b o s p z => [23#5 ++ d ++ b ++ o ++ s ++ p ++ 0#1 ++ z]
  | .atom d a b l fn sp op t o => [24#5 ++ d ++ a ++ b ++ l ++ fn, 0x1D#5 ++ sp ++ op ++ t ++ 0#5 ++ o ++ 0#6]
  | .fence s o => [25#5 ++ 0#2 ++ s ++ o ++ 0#14 ++ 0#6]
  | .binit n a => [25#5 ++ 0#3 ++ n ++ a ++ 0#7 ++ 1#6]
  | .barr d e n => [25#5 ++ d ++ 0#9 ++ e ++ n ++ 2#6]
  | .bexp e r n a => [25#5 ++ 0#1 ++ e ++ r ++ n ++ a ++ 0#7 ++ 3#6]
  | .bwait p a c n => [25#5 ++ 0#3 ++ p ++ a ++ 0#2 ++ c ++ n ++ 4#6]
  | .bqry d c s n => [25#5 ++ d ++ 0#7 ++ c ++ s ++ n ++ 5#6]
  | .cbar d e n => [25#5 ++ d ++ 0#9 ++ e ++ n ++ 6#6]
  | .course p => [25#5 ++ 0#3 ++ p ++ 0#14 ++ 7#6]
  | .kwait n m c => [25#5 ++ n ++ 0#10 ++ m ++ c ++ 8#6]
  | .srinit f r a o n => [25#5 ++ 0#1 ++ f ++ r ++ a ++ 0#2 ++ o ++ n ++ 9#6]
  | .sracq p a r => [25#5 ++ 0#3 ++ p ++ a ++ 0#5 ++ r ++ 10#6]
  | .srput x e r a b => [25#5 ++ 0#3 ++ x ++ e ++ r ++ a ++ b ++ 11#6]
  | .srget p a r => [25#5 ++ 0#3 ++ p ++ a ++ 0#5 ++ r ++ 12#6]
  | .srrel e r a => [25#5 ++ 0#4 ++ e ++ r ++ a ++ 0#7 ++ 13#6]
  | .srclose r => [25#5 ++ 0#5 ++ r ++ 0#14 ++ 14#6]
  | .cvset a c => [25#5 ++ 0#7 ++ a ++ 0#4 ++ c ++ 15#6]
  | .sign c => [25#5 ++ 0#18 ++ c ++ 16#6]
  | .cvwait c => [25#5 ++ 0#18 ++ c ++ 17#6]
  | .lock a n => [25#5 ++ 0#7 ++ a ++ 0#3 ++ n ++ 18#6]
  | .unlock a => [25#5 ++ 0#7 ++ a ++ 0#7 ++ 19#6]
  | .cpost d a l => [26#5 ++ d ++ a ++ 0#7 ++ l ++ 0#2]
  | .tpost a => [26#5 ++ 0#7 ++ a ++ 0#11 ++ 1#2]
  | .freeze a n => [26#5 ++ 0#7 ++ a ++ 0#1 ++ 0#2 ++ n ++ 0#4 ++ 2#2]
  | .thaw a n => [26#5 ++ 0#7 ++ a ++ 1#1 ++ 0#2 ++ n ++ 0#4 ++ 2#2]
  | .rgqry d a l => [26#5 ++ d ++ a ++ 0#6 ++ 0#1 ++ l ++ 3#2]
  | .gwqry d a l => [26#5 ++ d ++ a ++ 0#6 ++ 1#1 ++ l ++ 3#2]
  | .br g n o => [27#5 ++ g ++ n ++ 0#2 ++ o]
  | .call g n o => [27#5 ++ g ++ n ++ 1#2 ++ o]
  | .nop => [28#5 ++ 0#21 ++ 0#6]
  | .yield => [28#5 ++ 0#21 ++ 1#6]
  | .exit => [28#5 ++ 0#21 ++ 2#6]
  | .ret => [28#5 ++ 0#21 ++ 3#6]
  | .retTrap => [28#5 ++ 0#21 ++ 4#6]
  | .jmpr a => [28#5 ++ 0#7 ++ a ++ 0#7 ++ 5#6]
  | .trap c => [28#5 ++ 0#5 ++ c ++ 6#6]
  | .tfence => [28#5 ++ 0#21 ++ 7#6]
  | .bkpt => [28#5 ++ 0#21 ++ 8#6]
  | .win b => [28#5 ++ 0#16 ++ b ++ 9#6]
  | .srd d n => [28#5 ++ d ++ 0#8 ++ n ++ 10#6]
  | .swr a n => [28#5 ++ 0#7 ++ a ++ 0#1 ++ n ++ 11#6]
  | .fstc d => [28#5 ++ d ++ 0#14 ++ 12#6]
  | _ => []

/-- The instruction whose words, numbered from the first word's bit 0, are `w`; the bits above `nbits` are zero. -/
def decodeTableWord (nbits w : Nat) : Option Instr :=
  let v := w % 2 ^ nbits
  match decodeWords (BitVec.ofNat 32 v) (BitVec.ofNat 32 (v / 2 ^ 32)) with
  | .ok i => some i
  | .illegal _ => none

end Sys2Proof
end

