-- ==== Sys2Proof/Machine/Fetch.lean ====
section
/-!
DEFINITION. Fetch: the words at a thread's PC (R55, R62): the pinned code pages (R305), run starts (R62), and the traps
that the PC and the words decide (R60 to R64).
-/

namespace Sys2Proof.Machine

/-- The bytes of a code address in device memory, by the pinned translation; none where the page is absent. -/
def codeKey (env : TeamEnv) (v : Nat) : Option Nat := (env.codePages.find (v / 2 ^ 16)).map (fun a => a + v % 2 ^ 16)

/-- An address of the code region (R55). -/
def inCode (env : TeamEnv) (v : Nat) : Bool := decide (env.codeBase ≤ v) && decide (v < env.codeBase + env.codeLen)

/-- What a word of code may be fetched as (R305): what its context's key reads in memory, what commands have overwritten while the launch runs, and
what a die's L2 holds of it that has not reached memory yet. -/
def codeValues (s : State) (ck key : Nat) : List Nat :=
  let now := fun (i : Nat) => s.plainByte ck (key + i)
  let word := fun (f : Nat → Byte) => (f 0).toNat + 2 ^ 8 * (f 1).toNat + 2 ^ 16 * (f 2).toNat + 2 ^ 24 * (f 3).toNat
  let old := (s.codeOld.filter (·.1 = key / 4)).map (·.2)
  let dirty := (List.range Config.dies).filterMap (fun d => ((s.die d).l2.find (key / 64)).bind (fun x =>
    if (List.range 4).any (fun i => x.dirty.getLsbD (key % 64 + i)) then
      some (word (fun i => if x.dirty.getLsbD (key % 64 + i) then x.byte (key % 64 + i) else now i))
    else none))
  (word now :: (old ++ dirty)).eraseDups

/-- The poisoned word of memory in which a word of code lies (R389). -/
def codePoison (s : State) (env : TeamEnv) (v : Nat) : Option Nat :=
  (codeKey env v).bind (fun a => if s.hours.poison.contains (.far (a / 8)) then some (a / 8) else none)

/-- The word at a code address; none where its page is absent. No bit of a poisoned word is received (R389). Which of the old and new values of an
overwritten word is fetched is unspecified (R305). -/
def codeWord (s : State) (team : Team) (v : Nat) : Option IWord :=
  (codeKey team.env v).map (fun a =>
    if (codePoison s team.env v).isSome then 0
    else match codeValues s (s.cryptOf team.ids.ctx v) a with
      | [x] => BitVec.ofNat 32 x
      | vs => BitVec.ofNat 32 (vs.getD (Config.freeChoice s.tick a % vs.length) 0))

/-- MAJ of a word (R55). -/
def majOf (w : IWord) : BitVec 5 := fld w 27 5

/-- The majors of pairs (R58). -/
def pairMaj (m : BitVec 5) : Bool := m == 0x0F#5 || m == 0x10#5 || m == 0x11#5 || m == 0x12#5 || m == 0x18#5

/-- Whether a word is a trailer. -/
def isTrailer (w : IWord) : Bool := majOf w == 1#5

/-- The entry and handler PCs that are run starts (R62): those of the roles that the team has, and the handlers set. -/
def namedStarts (team : Team) : List Nat :=
  ((List.range 4).filter (fun r => team.groups.any (fun g => g.role == r))).map (fun r => team.env.entries.getD r 0) ++
    team.env.handlers.filter (· != 0)

/-- Whether an address is a run start (R62). The word before it is one of the code region: the first word of the region follows none (the model's
choice, log 83). -/
def isRunStart (s : State) (team : Team) (v : Nat) : Bool :=
  (namedStarts team).contains v ||
    (decide (4 ≤ v) && inCode team.env (v - 4) && ((codeWord s team (v - 4)).map isTrailer).getD false)

/-- The trap that a transfer's target takes (R64): code bound, then run entry; none for a run start. -/
def targetTrap (s : State) (team : Team) (v : Nat) : Option Nat :=
  if !inCode team.env v then some 4
  else if v % 4 ≠ 0 || !isRunStart s team v then some 2
  else none

/-- What a fetch finds. -/
inductive Fetch where
  | trap (code detail : Nat) (lanes : List Nat) (addr : Nat)
  | absent
  | poison (word addr : Nat)
  | go (i : Instr) (t : Turn)

/-- The words an instruction needs, from its first two (R58, R72). -/
def wordsNeeded (w0 w1 : IWord) : Nat :=
  if majOf w0 == 2#5 then (if pairMaj (majOf w1) then 3 else 2) else if pairMaj (majOf w0) then 2 else 1

/-- Whether the words of the instruction at an aligned PC straddle the end of the code region (R28). -/
def straddles (s : State) (team : Team) (pc : Nat) : Bool :=
  let w := fun (k : Nat) => if inCode team.env (pc + 4 * k) then (codeWord s team (pc + 4 * k)).getD 0 else 0
  decide (pc % 4 = 0) && !inCode team.env (pc + 4 * wordsNeeded (w 0) (w 1) - 1)

/-- The instruction at a PC whose words lie in the code region, or its trap (R60, R61, R63). -/
def fetchAt (s : State) (t : Turn) (team : Team) (pc : Nat) : Fetch :=
  let w := fun (k : Nat) => if inCode team.env (pc + 4 * k) then (codeWord s team (pc + 4 * k)) else some 0
  match w 0, w 1, w 2, w 3 with
  | some w0, some w1, some w2, some w3 =>
    match (List.range (wordsNeeded w0 w1)).findSome? (fun k => codePoison s team.env (pc + 4 * k)) with
    | some x => .poison x pc
    | none =>
      match decodeFetch w0 w1 w2 with
      | .error d => .trap 1 d t.lanes 0
      | .ok f =>
        let after := match f.words with
          | 1 => w1
          | 2 => w2
          | _ => w3
        .go f.instr { t with pfx := f.pfx, ipc := pc, len := 4 * f.words,
                             closes := inCode team.env (pc + 4 * f.words) && isTrailer after }
  | _, _, _, _ => .absent

/-- The poisoned word that a check of a target would have to read: the one before it, unless the target is named (R62, R389). -/
def targetPoison (s : State) (team : Team) (v : Nat) : Option Nat :=
  if (namedStarts team).contains v || !inCode team.env (v - 4) then none else codePoison s team.env (v - 4)

/-- The fetch of an issue set (R9, R61): code bound, run entry for the lanes whose transfer is not yet checked, then
the words. -/
def fetch (s : State) (t : Turn) (team : Team) (g : Group) : Fetch :=
  let ths := t.lanes.filterMap (fun l => g.threads[l]?.map (fun th => (l, th)))
  match ths with
  | [] => .trap 4 0 [] 0
  | (_, th) :: _ =>
    let pc := th.pc.toNat
    if !inCode team.env pc || straddles s team pc then .trap 4 0 t.lanes pc
    else
      let fresh := (ths.filter (fun e => e.2.unchecked)).map (·.1)
      match (if fresh.isEmpty then none else targetPoison s team pc), (if fresh.isEmpty then none else targetTrap s team pc) with
      | some x, _ => .poison x (pc - 4)
      | none, some c => .trap c 0 fresh pc
      | none, none => fetchAt s t team pc

/-- The address that a turn's next fetch stands at. -/
def fetchPc (t : Turn) (g : Group) : Nat :=
  (((t.lanes.head?).bind (fun l => g.threads[l]?)).map (fun th => th.pc.toNat)).getD 0

/-- Whether the issue set waits for a result of its own before its next word (R66, R71). -/
def turnHolds (t : Turn) (g : Group) : Bool := t.lanes.any (fun l => ((g.threads[l]?).map (fun th => th.pend.any (·.hold))).getD false)

end Sys2Proof.Machine
end

