-- ==== Sys2Proof/Machine/Teams.lean ====
section
/-!
DEFINITION. Teams: what a thread, a group and a team hold when they start (R23, R27), and how an instruction word is
placed where a step fetches it.
-/

namespace Sys2Proof.Machine

/-- A thread when its group starts (R23). -/
def Thread.fresh (lane pc : Nat) (xmode : BitVec 17) : Thread :=
  { pc := BitVec.ofNat 64 pc, wb := 0, regs := [], preds := [], xmode := xmode, fflags := 0, ffpc := 0, ffat := 0,
    seed := BitVec.ofNat 64 (lane * 0x9E3779B97F4A7C15), pos := 0, status := .run, owed := false, stamp := 0, xfer := none,
    unchecked := false, pend := [], acqs := [], fences := [], relFence := false, met := none, held := false, signed := [], poison := [] }

/-- A group when it starts (R23, R26, R27): its start is the cycle from which %timer counts. -/
def Group.fresh (role slot budget pc start : Nat) (xmode : BitVec 17) : Group :=
  { role := role, slot := slot, budget := budget, threads := (List.range 32).map (fun l => Thread.fresh l pc xmode), turns := 0,
    frame := none, counters := [0, 0, 0, 0], posted := [], faultmask := { lanes := 0, kind := 0, firstpc := 0 }, start := start }

/-- A team when it starts, with its groups and its barriers' initial settings (R27). -/
def Team.fresh (ids : TeamIds) (env : TeamEnv) (groups : List Group) (bars : List (Nat × Nat)) : Team :=
  { ids := ids, env := env, state := .running, groups := groups, bars := bars.map (fun b => Barrier.fresh b.1 b.2), cvs := [],
    rings := [], token := none, captures := [], courses := 0, cluPhases := 0 }

/-! ### A team for one word (withFetchWord) -/

/-- Where the placed word stands: the first address of a code region of one page. -/
def placedCode : Nat := 0x10000

/-- The environment of a team whose one code page lies at the first bytes of device memory. -/
def placedEnv : TeamEnv :=
  { scratchBase := 0, scratchSize := 0, constBase := 0, constSize := 0, codeBase := placedCode,
    codeLen := 0x10000, codePages := [(1, 0)], entries := [placedCode, 0, 0, 0], handlers := [0, 0, 0, 0], xmode := 0, stream := false,
    quota := 0 }

/-- A team of one group in the role all, alone in its cluster. -/
def placedTeam : Team :=
  Team.fresh { team := 0, clx := 0, cly := 0, cluster := 0, grid := 0, task := 0, slot := 0, ctx := 0, peers := [(0, 0)] } placedEnv
    [Group.fresh 0 0 256 placedCode 0 0] (List.replicate 16 (1, 0))

/-- The bytes of an instruction word and of the trailer that follows it (R63, R65). -/
def placedBytes (nbits w : Nat) : Nat :=
  let v := w % 2 ^ nbits
  let n := match decodeTableWord nbits w with
    | some i => i.words
    | none => 1
  v % 2 ^ (32 * n) + 0x0FFFFFC0 * 2 ^ (32 * n)

/-- The state in which the next step fetches the word. -/
def State.placeWord (s : State) (nbits w : Nat) : State :=
  { s with coming := [], far := s.far.writeLE 0 (placedBytes nbits w) 12,
           cores := s.cores.insert 0 { s.core 0 with teams := [(0, placedTeam)], binds := [(0, 3)] },
           turn := some { core := 0, tr := 0, grp := 0, lanes := List.range 32, pfx := none, ipc := placedCode, len := 4,
                          closes := false } }

end Sys2Proof.Machine
end

