-- ==== Sys2Proof/Machine/Place.lean ====
section
/-!
DEFINITION. Place: what is bound on the cores, and the placement of clusters (R7, R8, R198, R200, R271, R304, R312), with the bind
records that the scheduler writes (R307).
-/

namespace Sys2Proof.Machine

/-! ### What is bound (R200, R307) -/

/-- Bits [lo + w - 1 : lo] of a bind record. -/
def recField (r : BitVec 512) (lo w : Nat) : Nat := (r.extractLsb' lo w).toNat

/-- A bind record. -/
def State.bindRec (s : State) (core r : Nat) : BitVec 512 := Table.get 0 (s.core core).binds r

/-- Writes a bind record. -/
def State.setBind (s : State) (core r : Nat) (b : BitVec 512) : State :=
  s.modCore core (fun k => { k with binds := Table.put 0 k.binds r b })

/-- Team records of a core that are occupied, from a team's bind until its state is released (R200). -/
def State.occupied (s : State) (core : Nat) : List Nat :=
  s.sched.tasks.flatMap (fun t => (t.2.teams.filter (·.1 == core)).map (·.2))

/-- The launch block of a grid. -/
def State.blockOf (s : State) (grid : Nat) : Block := ((s.sched.launches.find grid).map (·.block)).getD 0

/-- The groups of an occupied record that are resident on a slot, each with its first register and its budget (R7, R8): all
of a team that dispatch has not taken yet, then those that have not exited. -/
def State.residents (s : State) (core r slot : Nat) : List (Nat × Nat) :=
  let b := s.bindRec core r
  let blk := s.blockOf (recField b 64 64)
  let f := recField b 2 2
  (blk.slotGroups f slot).filterMap (fun g =>
    if (((s.team core r).bind (fun t => t.groups[g]?)).map Group.ended).getD false then none
    else some (recField b (192 + 10 * slot) 10 + blk.groupOffset f g, blk.groupBudget g))

/-- Every resident group of a slot. -/
def State.onSlot (s : State) (core slot : Nat) : List (Nat × Nat) := (s.occupied core).flatMap (fun r => s.residents core r slot)

/-- The slot with the fewest resident groups, ties to the lowest (R7). -/
def State.fewestSlot (s : State) (core : Nat) : Nat :=
  (List.range Config.slots).foldl (fun best k => if (s.onSlot core k).length < (s.onSlot core best).length then k else best) 0

/-- The lowest start of a free range of a length, among used ranges (start, length). -/
def lowestFree (used : List (Nat × Nat)) (len limit : Nat) : Option Nat :=
  let ok := fun (b : Nat) => decide (b + len ≤ limit) && used.all (fun u => decide (b + len ≤ u.1) || decide (u.1 + u.2 ≤ b))
  ((0 :: used.map (fun u => u.1 + u.2)).filter ok).foldl (fun best b => match best with
    | none => some b
    | some x => some (min x b)) none

/-! ### Constant bindings (R304) -/

/-- Ranges of a core's constant store that bound teams use, in units of 4 KiB. -/
def State.constUsed (s : State) (core : Nat) : List (Nat × Nat) :=
  ((s.occupied core).map (fun r => (recField (s.bindRec core r) 273 6, recField (s.bindRec core r) 279 7))).filter (·.2 != 0)

/-- A free range of the constant store; while there is none, the least recently used resident binding that no team uses
leaves. -/
def constFind (used : List (Nat × Nat)) (n : Nat) : Nat → List (Nat × Nat × Nat × Nat) → Option (Nat × List (Nat × Nat × Nat × Nat))
  | 0, _ => none
  | fuel + 1, binds =>
    match lowestFree (used ++ binds.map (fun b => (b.2.2.1, b.2.2.2))) n 64 with
    | some b => some (b, binds)
    | none =>
      match binds.findIdx? (fun b => !used.contains (b.2.2.1, b.2.2.2)) with
      | none => none
      | some i => constFind used n fuel (binds.eraseIdx i)

/-- The binding of a launch on a core (R304): the base, and the core's resident bindings afterwards, least recently used first. -/
def State.placeConst (s : State) (core grid : Nat) (l : Launch) : Option (Nat × List (Nat × Nat × Nat × Nat)) :=
  let n := l.block.constSize / 4096
  let key := l.block.ckey
  let binds := (s.core core).constBinds
  if n = 0 then some (0, binds)
  else match (s.occupied core).find? (fun r => recField (s.bindRec core r) 64 64 == grid) with
    | some r => some (recField (s.bindRec core r) 273 6, binds)
    | none =>
      match (if key = 0 then none else binds.find? (fun b => b.1 == l.ctx && b.2.1 == key && b.2.2.2 == n)) with
      | some b => some (b.2.2.1, binds.erase b ++ [b])
      | none => (constFind (s.constUsed core) n (binds.length + 1) binds).map (fun r =>
          (r.1, if key = 0 then r.2 else r.2 ++ [(l.ctx, key, r.1, n)]))

/-! ### Teams (R200, R307) -/

/-- The bits of a bind record, VALID and GO clear (R307). -/
def bindBits (f team ctx prio roles cluster grid task : Nat) (qs : List Nat) (sp spn cb cbn lb : Nat) : BitVec 512 :=
  BitVec.ofNat 512 (f * 2 ^ 2 + team * 2 ^ 4 + ctx * 2 ^ 8 + prio * 2 ^ 16 + roles * 2 ^ 18 + cluster * 2 ^ 32 + grid % 2 ^ 64 * 2 ^ 64 +
    task % 2 ^ 64 * 2 ^ 128 + (qs.zipIdx.foldl (fun a q => a + q.1 * 2 ^ (192 + 10 * q.2)) 0) + sp * 2 ^ 256 + spn * 2 ^ 264 + cb * 2 ^ 273 +
    cbn * 2 ^ 279 + lb % 2 ^ 48 * 2 ^ 288)

/-- ROLES of a bind record. -/
def Block.roleMask (b : Block) : Nat := (List.range 4).foldl (fun a k => if b.present k then a + 2 ^ k else a) 0

/-- Changes a task. -/
def State.modTask (s : State) (task : Nat) (f : Task → Task) : State :=
  match s.sched.tasks.find task with
  | some t => { s with sched := { s.sched with tasks := s.sched.tasks.insert task (f t) } }
  | none => s

/-- First registers of a launch's groups on the four slots of a core, from slot f; none where they do not fit (R7, R8). -/
def State.placeRegs (s : State) (core f : Nat) (b : Block) : Option (List Nat) :=
  (List.range Config.slots).mapM (fun k =>
    if 8 < (s.onSlot core k).length + (b.slotGroups f k).length then none else lowestFree (s.onSlot core k) (b.slotRegs f k) 1024)

/-- Binds one team of a task to a core, where it fits (R200); the scheduler's copy of the block lies at an address that the spec
leaves open. -/
def State.placeTeam (s : State) (task grid slot cluster : Nat) (l : Launch) (tc : Nat × Nat) : Option State :=
  let core := tc.2
  let b := l.block
  let rs := s.occupied core
  let f := s.fewestSlot core
  let spn := (b.scratch + 4095) / 4096
  let sps := rs.map (fun r => (recField (s.bindRec core r) 256 8, recField (s.bindRec core r) 264 9))
  (List.range Config.teamRecords).find? (fun r => !rs.contains r) |>.bind (fun r =>
    (s.placeRegs core f b).bind (fun qs =>
      (lowestFree sps spn 256).bind (fun sp =>
        (s.placeConst core grid l).map (fun cb =>
          let bits := bindBits f tc.1 l.ctx b.prio b.roleMask cluster grid (task * 16 + slot) qs sp spn cb.1 (b.constSize / 4096)
            (Config.freeWord s.tick grid).toNat
          let s := s.modCore core (fun k => { k with binds := k.binds.insert r bits, constBinds := cb.2 })
          s.modTask task (fun t => { t with teams := t.teams ++ [(core, r)] })))))

/-! ### Clusters (R198, R271, R312) -/

/-- Whether a core can take teams of a context: in its partition and not about to leave it, and neither it nor its die is
fenced (R4, R198, R329). -/
def State.coreReady (s : State) (ctx core : Nat) : Bool :=
  (s.ctx ctx).cores.getLsbD core && (((s.ctx ctx).repart.map (fun r => r.1.getLsbD core)).getD true) && !s.hours.fenced.cores.contains core && (s.die (dieOf core)).state == .online

/-- The cores of a W x H cluster at an origin of a die, by %team; none where it does not fit (R198). -/
def originCores (die w h x0 y0 : Nat) : Option (List Nat) :=
  if x0 + w ≤ 8 ∧ y0 + h ≤ 6 then
    some ((List.range (w * h)).map (fun t => die * Config.coresPerDie + (y0 + t / w) * 8 + x0 + t % w))
  else none

/-- Grids with a team bound on a die. -/
def State.gridsOn (s : State) (die : Nat) : List Nat :=
  ((s.sched.tasks.filter (fun t => t.2.teams.any (fun x => dieOf x.1 == die))).map (·.2.grid)).eraseDups

/-- Whether a launch's counted quota fits on a die beside the others (R271). -/
def State.quotaFits (s : State) (die grid : Nat) (b : Block) : Bool :=
  decide (((s.gridsOn die).filter (· != grid)).foldl (fun a g => a + (s.blockOf g).quota) b.quota ≤ 4)

/-- The lowest free inbox slot of a node on a die (R320). -/
def State.inboxSlot (s : State) (die task grid : Nat) (b : Block) : Option Nat :=
  let used := (s.sched.tasks.filter (fun t => t.1 != task && t.2.grid == grid && t.2.die == die)).map (·.2.slot)
  (List.range b.inboxn).find? (fun k => !used.contains k)

/-- Places a cluster at one origin, or not at all. -/
def State.placeAt (s : State) (task grid slot cluster : Nat) (l : Launch) (die x0 y0 : Nat) : Option State :=
  (originCores die l.block.width l.block.height x0 y0).bind (fun cs =>
    if cs.all (s.coreReady l.ctx) then
      (cs.zipIdx.map (fun e => (e.2, e.1))).foldl (fun acc tc => acc.bind (fun s => s.placeTeam task grid slot cluster l tc)) (some s)
    else none)

/-- Origins of a die in order: y ascending, then x ascending. -/
def origins : List (Nat × Nat) := (List.range 6).flatMap (fun y => (List.range 8).map (fun x => (x, y)))

/-- Places a cluster on a die (R312): the first origin that fits, and for a node the lowest free inbox slot. -/
def State.placeOn (s : State) (task grid cluster : Nat) (l : Launch) (die : Nat) : Option State :=
  if !s.quotaFits die grid l.block then none
  else
    (if l.block.node then s.inboxSlot die task grid l.block else some 0).bind (fun slot =>
      origins.findSome? (fun o => (s.placeAt task grid slot cluster l die o.1 o.2).map (fun s =>
        s.modTask task (fun t => { t with slot := slot, die := die }))))

/-- Places a cluster, on the preferred die first. -/
def State.placeCluster (s : State) (task grid cluster : Nat) (l : Launch) (pref : List Nat) : Option State :=
  (pref ++ (List.range Config.dies).filter (fun d => !pref.contains d)).findSome? (fun d => s.placeOn task grid cluster l d)

/-- Places n clusters from a number on, each given the ones before it (R312). -/
def State.placeClusters (s : State) (task grid : Nat) (l : Launch) (pref : List Nat) : Nat → Nat → Option State
  | _, 0 => some s
  | first, n + 1 =>
    match s.placeCluster task grid first l pref with
    | none => none
    | some s => State.placeClusters s task grid l pref (first + 1) n

/-! ### Gangs (R306, R310, R320) -/

/-- The die that a gang prefers: for a node the die of its pallet's slice (R312). -/
def Gang.pref (g : Gang) (b : Block) : List Nat := if b.node then [g.slice / 32] else []

/-- A task when its gang is bound. -/
def Task.fresh (g : Gang) (ctx : Nat) (node : Bool) : Task :=
  { grid := g.grid, ctx := ctx, state := .bound, teams := [], slot := 0, die := 0, gang := g, inboxDone := !node, failed := false,
    mailbox := false, watch := 0, paused := 0, summary := Summary.empty }

/-- The task that a waiting gang belongs to: a STREAM launch's own, once it has one, else a new one. -/
def State.taskFor (s : State) (g : Gang) (b : Block) : Option Nat :=
  if b.stream then (s.sched.tasks.find? (fun t => t.2.grid == g.grid)).map (·.1) else none

/-- Binds a waiting gang (R306, R312): the whole grid, or of a STREAM launch the next cluster; none where it cannot be placed. -/
def State.bindGang (s : State) (g : Gang) : Option State :=
  match s.sched.launches.find g.grid with
  | none => none
  | some l =>
    let b := l.block
    let old := s.taskFor g b
    let task := old.getD s.sched.taskSeq
    let s := if old.isSome then s
      else { s with sched := { s.sched with tasks := s.sched.tasks.insert task (Task.fresh g l.ctx b.node), taskSeq := task + 1 } }
    (s.placeClusters task g.grid l (g.pref b) g.first (if b.stream then 1 else b.clusters)).map (fun s =>
      let rest := if b.stream && decide (g.first + 1 < b.clusters) then [{ g with first := g.first + 1 }] else []
      let s := { s with sched := { s.sched with gangs := s.sched.gangs.flatMap (fun x => if x == g then rest else [x]) } }
      if b.node then
        match (s.sched.tasks.find task).bind (·.teams.head?) with
        | some t => s.modHod t.1 (fun h => { h with inbox := h.inbox ++ [task] })
        | none => s
      else s)

/-- Whether a task is on its way out. -/
def Task.leaving (t : Task) : Bool :=
  match t.state with
  | .stopping _ | .discarding _ => true
  | _ => false

/-- The package with these tasks' teams gone. -/
def State.without (s : State) (p : Nat → Task → Bool) : State :=
  let gone := (s.sched.tasks.filter (fun t => p t.1 t.2)).flatMap (fun t => t.2.teams)
  { s with sched := { s.sched with tasks := s.sched.tasks.filter (fun t => !p t.1 t.2) },
           cores := s.cores.map (fun (c : Nat × Core) => (c.1, { c.2 with teams := c.2.teams.filter (fun e => !gone.contains (c.1, e.1)) })) }

/-- How many teams of a launch a core takes at once, up to a number. -/
def State.teamsFit (s : State) (task grid : Nat) (l : Launch) (core : Nat) : Nat → Nat
  | 0 => 0
  | n + 1 =>
    match s.placeTeam task grid 0 0 l (0, core) with
    | none => 0
    | some s => 1 + State.teamsFit s task grid l core n

/-- Whether n clusters can lie on these sites, each core with so much room left, in some way of sharing them out. -/
def canPack : List (List Nat) → Nat → List Nat → Bool
  | [], n, _ => n == 0
  | o :: os, n, room =>
    n == 0 || (List.range (Config.teamRecords + 1)).any (fun m =>
      decide (m ≤ n) && (o.all (fun c => decide (m ≤ room.getD c 0)) &&
        canPack os (n - m) (room.zipIdx.map (fun e => if o.contains e.2 then e.1 - m else e.1))))

/-- Whether all clusters of a launch have places at once on a package without teams, wherever they lie (R198, R200). -/
def State.packable (s : State) (l : Launch) (grid : Nat) : Bool :=
  let b := l.block
  let task := s.sched.taskSeq
  let g : Gang := { grid := grid, first := 0, records := [], slice := 0, since := 0, poisoned := false }
  let s := { s with sched := { s.sched with tasks := s.sched.tasks.insert task (Task.fresh g l.ctx b.node) } }
  let room := (List.range Config.cores).map (fun c => if s.coreReady l.ctx c then s.teamsFit task grid l c Config.teamRecords else 0)
  let sites := (List.range Config.dies).flatMap (fun d => origins.filterMap (fun o => originCores d b.width b.height o.1 o.2))
  decide (b.clusters * b.teams ≤ room.sum) && canPack sites b.clusters room

/-- Whether a launch has a placement with every healthy core of its partition free and every counted quota unused (R303, R310): the one that R312
tries, or for a grid that is bound whole any other (log 43). -/
def State.placeable (s : State) (grid : Nat) (slice : Nat) : Bool :=
  let s := s.without (fun _ _ => true)
  let s := { s with cores := s.cores.map (fun (c : Nat × Core) => (c.1, { c.2 with constBinds := [] })) }
  (s.bindGang { grid := grid, first := 0, records := [], slice := slice, since := 0, poisoned := false }).isSome ||
    (match s.sched.launches.find grid with
     | none => false
     | some l => !l.block.stream && (!l.block.node && s.packable l grid))

end Sys2Proof.Machine
end

