-- ==== Sys2Proof/Machine/Graph.lean ====
section
/-!
DEFINITION. Graph: work graphs (R314 to R320, R323 to R325): nodes, pallets and their firing, predecessor ends, cancelling and
the error token; and the completion of launches and nodes (R326, R327).
-/

namespace Sys2Proof.Machine

/-! ### Nodes (R314, R319) -/

/-- The number under which a context's node is listed. -/
def nodeKey (ctx id : Nat) : Nat := ctx * 2 ^ 16 + id

/-- The live or Cancelling node of a name, with its grid. -/
def State.nodeNamed (s : State) (ctx id : Nat) : Option (Nat × Node) :=
  (s.sched.nodes.find (nodeKey ctx id)).bind (fun g => (s.sched.graph.find g).map (fun n => (g, n)))

/-- Whether a name has been registered in a context, even if its node has ended since (R319). -/
def State.registered (s : State) (ctx id : Nat) : Bool := (s.sched.nodes.find (nodeKey ctx id)).isSome

/-- The context of a grid. -/
def State.gridCtx (s : State) (grid : Nat) : Nat := ((s.sched.launches.find grid).map (·.ctx)).getD 0

/-- Writes a node. -/
def State.setNode (s : State) (grid : Nat) (n : Node) : State := { s with sched := { s.sched with graph := s.sched.graph.insert grid n } }

/-- The successors of a grid that R301 allows: at most eight. -/
def State.succsOf (s : State) (grid : Nat) : List Nat := (s.blockOf grid).succs.take 8

/-- Whether a node's predecessors are done (R317, R323); without predecessor edges they never are. -/
def Node.predsDone (n : Node) (b : Block) : Bool := b.preds != 0 && decide (b.preds ≤ n.predEnds)

/-- Whether a grid has a gang waiting or running. -/
def State.busyGrid (s : State) (grid : Nat) : Bool := s.sched.gangs.any (·.grid == grid) || s.sched.tasks.any (fun t => t.2.grid == grid)

/-! ### Pallets (R316 to R318) -/

/-- Records of a slice that it stores itself. -/
def State.storedAt (s : State) (slice : Nat) : Nat :=
  s.sched.graph.foldl (fun a n => a + ((Table.get [] n.2.pallets slice).filter (fun r => r.spilled.isNone)).length) 0

/-- Spilled records that leave give their room back (R316). -/
def State.unspill (s : State) (ctx : Nat) (rs : List ContRec) : State :=
  let gone := rs.filterMap (·.spilled)
  if gone.isEmpty then s else s.modCtx ctx (fun k => { k with spilled := k.spilled.filter (fun n => !gone.contains n) })

/-- Where the scheduler core can write an address of a context, under the rules for the host's writes (R303, R340). -/
def schedPlace (s : State) (ctx va : Nat) : HostGot :=
  (hostPlace s ctx va .write).bind (fun s key =>
    match (s.ctx ctx).effective va with
    | .frozen _ => .refused s .frozen 0
    | .thawing => .wait s
    | _ => if s.spentLine key then .refused s .denied 0 else .ok s key)

/-- The lowest slot of a context's spill area that holds no record (log 38). -/
def Ctx.spillSlot (k : Ctx) : Nat := ((List.range (k.spilled.length + 1)).find? (fun n => !k.spilled.contains n)).getD 0

/-- Address of a slot of a context's spill area. -/
def Ctx.spillAt (k : Ctx) (slot : Nat) : Nat := k.spill + 64 * slot

/-- A record goes to the spill area of its context and has a slot there; refused where the area is full or cannot be written (R316). -/
def State.spillRecord (s : State) (ctx : Nat) (data : BitVec 512) : HostGot :=
  let k := s.ctx ctx
  let slot := k.spillSlot
  if k.spill = 0 ∨ k.spillLen * 1024 ≤ slot then .refused s .nomap 0
  else (schedPlace s ctx (k.spillAt slot)).bind (fun s key =>
    .ok ((s.hostPut ctx (k.spillAt slot) key data.toNat 64).modCtx ctx (fun k => { k with spilled := k.spilled ++ [slot] })) slot)

/-- A pallet fires its m oldest records: one waiting gang (R317, R320); spilled ones stay in the spill area until the gang's inbox is filled. -/
def State.fire (s : State) (grid slice m : Nat) : State :=
  match s.sched.graph.find grid with
  | none => s
  | some n =>
    let rs := Table.get [] n.pallets slice
    let g : Gang := { grid := grid, first := 0, records := rs.take m, slice := slice, since := s.ns, poisoned := (rs.take m).any (·.poisoned) }
    let s := s.setNode grid { n with pallets := Table.put [] n.pallets slice (rs.drop m) }
    { s with sched := { s.sched with gangs := s.sched.gangs ++ [g] } }

/-- The firing rules of a node's pallets that do not wait for a timer (R317): a count that is met, or an idle node whose
predecessors are done. -/
def State.pumpNode (grid : Nat) : Nat → State → State
  | 0, s => s
  | fuel + 1, s =>
    match s.sched.graph.find grid with
    | none => s
    | some n =>
      let b := s.blockOf grid
      if n.state != .live then s
      else match n.pallets.find? (fun p => decide (b.coal ≤ p.2.length)) with
        | some p => State.pumpNode grid fuel (s.fire grid p.1 b.coal)
        | none =>
          match n.pallets with
          | p :: _ => if n.predsDone b && !s.busyGrid grid then s.fire grid p.1 b.coal else s
          | [] => s

/-- Records a node holds. -/
def Node.held (n : Node) : List ContRec := n.pallets.flatMap (·.2)

/-- Applies the firing rules to a node. -/
def State.pumpGrid (s : State) (grid : Nat) : State :=
  s.pumpNode grid ((((s.sched.graph.find grid).map (fun n => n.held.length)).getD 0) + 1)

/-- Adds cancelled records to a launch's status (R325). -/
def State.addCancelled (s : State) (grid n : Nat) : State :=
  s.modSummary grid (fun m => { m with cancelled := min (m.cancelled + n) (2 ^ 32 - 1) })

/-- Records that come back to a slice, each into the slice while it has room, else into the spill area (R316); where that is full too the slice keeps
it (log 38). -/
def State.takeBack (slice ctx : Nat) : List ContRec → State × List ContRec → State × List ContRec
  | [], a => a
  | r :: rs, a =>
    let full := decide (2048 ≤ a.1.storedAt slice + (a.2.filter (fun x => x.spilled.isNone)).length)
    match (if r.spilled.isNone && full then a.1.spillRecord ctx r.data else .wait a.1) with
    | .ok s n => State.takeBack slice ctx rs (s, a.2 ++ [{ r with spilled := some n }])
    | _ => State.takeBack slice ctx rs (a.1, a.2 ++ [r])

/-- Puts a discarded gang's records back at the front of their pallet (R318); a Cancelling node cancels them. -/
def State.returnRecords (s : State) (g : Gang) : State :=
  match s.sched.graph.find g.grid with
  | none => s
  | some n =>
    if n.state != .live then (s.unspill (s.gridCtx g.grid) g.records).addCancelled g.grid g.records.length
    else
      let b := State.takeBack g.slice (s.gridCtx g.grid) (g.records.map (fun r => { r with poisoned := g.poisoned })) (s, [])
      (b.1.setNode g.grid { n with pallets := Table.put [] n.pallets g.slice (b.2 ++ Table.get [] n.pallets g.slice) }).pumpGrid g.grid

/-! ### Cancelling and tokens (R324, R325) -/

/-- A live node enters Cancelling: its held records and the records of its waiting gangs are cancelled. -/
def State.cancelNode (s : State) (grid : Nat) (retired : Bool) : State :=
  match s.sched.graph.find grid with
  | none => s
  | some n =>
    let waiting := s.sched.gangs.filter (·.grid == grid)
    let count := n.held.length + (waiting.map (·.records.length)).sum
    let s := s.unspill (s.gridCtx grid) (n.held ++ waiting.flatMap (·.records))
    let s := { s with sched := { s.sched with gangs := s.sched.gangs.filter (·.grid != grid) } }
    (s.setNode grid { n with state := .cancelling retired, pallets := [] }).addCancelled grid count

/-- Error tokens on their way: each live node that one reaches cancels and passes it on to every successor (R325). -/
def State.tokens (ctx : Nat) : Nat → List Nat → State → State
  | 0, _, s => s
  | _, [], s => s
  | fuel + 1, id :: rest, s =>
    match s.nodeNamed ctx id with
    | none => State.tokens ctx fuel rest s
    | some (g, n) =>
      if n.state == .live then State.tokens ctx fuel (rest ++ s.succsOf g) (s.cancelNode g false) else State.tokens ctx fuel rest s

/-- Sends the error token to nodes of a context. -/
def State.sendTokens (s : State) (ctx : Nat) (ids : List Nat) : State :=
  s.tokens ctx (ids.length + 9 * s.sched.graph.length + 1) ids

/-- RETIRE of a node (R325): a live one cancels without a token; a Cancelling one counts as retired for its end (R323). -/
def State.retireNode (s : State) (ctx id : Nat) : State :=
  match s.nodeNamed ctx id with
  | none => s
  | some (g, n) => if n.state == .live then s.cancelNode g true else s.setNode g { n with state := .cancelling true }

/-- Freezes a launch queue (R300, R324). -/
def State.freezeQueue (s : State) (q : Nat) : State :=
  { s with sched := { s.sched with queues := s.sched.queues.insert q { (Table.get LaunchQ.reset s.sched.queues q) with frozen := true } } }

/-- Discards every record that a task posted and that is still in a pallet, with their number (R324). -/
def State.discardRecords (s : State) (ctx task : Nat) : State × Nat :=
  s.sched.graph.foldl (fun acc e =>
    let mine := e.2.held.filter (fun r => r.task == task)
    if mine.isEmpty || acc.1.gridCtx e.1 != ctx then acc
    else
      let keep := (e.2.pallets.map (fun p => (p.1, p.2.filter (fun r => r.task != task)))).filter (fun p => !p.2.isEmpty)
      ((acc.1.setNode e.1 { e.2 with pallets := keep }).unspill ctx mine, acc.2 + mine.length)) (s, 0)

/-- What the scheduler does at a failure of a launch's or a node's task (R324), in order; unbound clusters of a STREAM launch are
dropped (R306). -/
def State.failGrid (s : State) (grid task : Nat) : State :=
  match s.sched.launches.find grid with
  | none => s
  | some l =>
    let s := s.freezeQueue l.queue
    let r := s.discardRecords l.ctx task
    let s := r.1.modSummary grid (fun m => { m with discarded := min (m.discarded + r.2) (2 ^ 32 - 1) })
    let s := if l.block.node then s else { s with sched := { s.sched with gangs := s.sched.gangs.filter (·.grid != grid) } }
    s.sendTokens l.ctx ((if l.block.node then [l.block.nodeid] else []) ++ s.succsOf grid)

/-! ### Predecessor ends (R323) -/

/-- The end of a launch or a node counts at each successor, once for each entry that names it; a self-edge gives none. -/
def State.countEnds (s : State) (ctx self : Nat) (ids : List Nat) : State :=
  ids.foldl (fun s id =>
    if id = self then s
    else match s.nodeNamed ctx id with
      | none => s
      | some (g, n) => (s.setNode g { n with predEnds := n.predEnds + 1 }).pumpGrid g) s

/-! ### Completion records (R326, R327) -/

/-- A count in a field of 32 bits, saturating. -/
def sat32 (n : Nat) : Nat := min n (2 ^ 32 - 1)

/-- Bits [959:0] of a completion record. -/
def recordBits (l : Launch) (grid state : Nat) : Nat :=
  let m := l.summary
  let trap := if m.killed then (0#64, 0#64, 0#64) else (m.trap.map (·.2)).getD (0#64, 0#64, 0#64)
  state + l.reason * 2 ^ 8 + m.countSpill.toNat * 2 ^ 16 + l.block.node.toNat * 2 ^ 17 + m.ovrMask.toNat * 2 ^ 32 +
    (if l.block.node then l.block.nodeid else 0) * 2 ^ 48 + m.faultLanes.toNat * 2 ^ 64 + m.faultKind % 16 * 2 ^ 96 +
    m.faultPc % 2 ^ 28 * 2 ^ 100 + trap.1.toNat * 2 ^ 128 + trap.2.1.toNat * 2 ^ 192 + trap.2.2.toNat * 2 ^ 256 +
    sat32 m.underread * 2 ^ 320 + sat32 m.oor * 2 ^ 352 + sat32 m.gangs * 2 ^ 384 + sat32 m.records * 2 ^ 416 + sat32 m.cancelled * 2 ^ 448 +
    sat32 m.discarded * 2 ^ 480 + sat32 m.badrec * 2 ^ 512 + sat32 m.discards * 2 ^ 544 + grid % 2 ^ 64 * 2 ^ 576

/-- The scheduler writes bytes of a context at their home slice; where they cannot be written nothing happens. -/
def State.schedWrite (s : State) (ctx va v n : Nat) : State :=
  match schedPlace s ctx va with
  | .ok s key => s.hostPut ctx va key v n
  | _ => s

/-- DONE of a ring rises by one for each launch at the head of its acceptance order that has ended (R298, R327). -/
def State.raiseDone (q ring ctx : Nat) : Nat → State → State
  | 0, s => s
  | fuel + 1, s =>
    let mine := s.sched.launches.filter (fun e => e.2.queue == q && e.2.ring == ring && e.2.ctx == ctx)
    match mine.find? (fun e => mine.all (fun x => decide (e.2.order ≤ x.2.order))) with
    | none => s
    | some e =>
      if !e.2.ended then s
      else
        let s := s.addWord ctx (ring + 16) 1
        State.raiseDone q ring ctx fuel { s with sched := { s.sched with launches := s.sched.launches.erase e.1 } }

/-- The code pages of a launch that has ended are no longer pinned: what commands have overwritten there is forgotten (R305). -/
def State.unpinCode (s : State) : State :=
  if s.codeOld.isEmpty then s
  else
    let pages := s.codePagesLive
    { s with codeOld := s.codeOld.filter (fun (e : Nat × Nat) => pages.any (fun p => decide (p ≤ 4 * e.1) && decide (4 * e.1 < p + 2 ^ 16))) }

/-- The end of a launch or a node (R327): its counted lines are resolved, the record is written, the course steps and the release
follow, then DONEWORD, DONE, the event and the predecessor ends. -/
def State.finishGrid (s : State) (grid state : Nat) : State :=
  let s := s.resolveLines (fun k => k.launch == grid)
  match s.sched.launches.find grid with
  | none => s
  | some l =>
    let compl := l.block.compl
    let silent := l.reason == 12
    let s := if silent then s else s.schedWrite l.ctx compl (recordBits l grid state) 120
    let s := s.courseSteps l.ctx (fun k => k.launch == grid)
    let s := if silent then s else s.schedWrite l.ctx (compl + 120) (grid % 2 ^ 63 + 2 ^ 63) 8
    let succs := s.succsOf grid
    let n := s.sched.launches.length
    let s := ({ s with sched := { s.sched with launches := s.sched.launches.insert grid { l with ended := true } } }).unpinCode
    let s := s.raiseDone l.queue l.ring l.ctx n
    let s := if silent then s.raiseEvent 2 l.ctx [l.queue, l.order, 12] else s.raiseEvent 1 l.ctx [compl, grid]
    s.countEnds l.ctx (if l.block.node then l.block.nodeid else 0) succs

/-- STATE of a launch that ends (R326). -/
def Launch.endState (l : Launch) : Nat :=
  if l.reason != 0 then 5
  else if l.summary.killed then 2
  else if l.summary.watchdog then 3
  else if l.summary.failed then 2
  else 1

/-- Ends a launch or a node once its record and its ring's DONE can be written and the course steps can end (R336, R340, R398). -/
def State.endGrid (s : State) (grid : Nat) (l : Launch) (state : Nat) (f : State → State) : Host.Outcome State Fault Refusal :=
  match (if l.reason == 12 then .ok s 0 else schedPlace s l.ctx l.block.compl) with
  | .wait s => .next s
  | _ =>
    if !s.wordReady l.ctx (l.ring + 16) then .next (s.askPage l.ctx (l.ring + 16))
    else if !s.courseReady l.ctx (fun k => k.launch == grid) then .next s
    else .next ((f s).finishGrid grid state)

/-- LAUNCH_END: a launch ends once no team state, no waiting gang and no posted record of it is left (R323, R327). -/
def execLaunchEnd (grid : Nat) (s : State) : Host.Outcome State Fault Refusal :=
  match s.sched.launches.find grid with
  | none => .next s
  | some l =>
    if s.sched.stopped || l.ended || (s.sched.graph.find grid).isSome || s.busyGrid grid || s.sched.tposts.any (fun r => r.grid == grid) then .next s
    else s.endGrid grid l l.endState id

/-- NODE_END: a node ends once its predecessors are done or it is retired, its pallets hold nothing and no gang of it waits or runs
(R323, R325). -/
def execNodeEnd (ctx node : Nat) (s : State) : Host.Outcome State Fault Refusal :=
  match s.nodeNamed ctx node with
  | none => .next s
  | some (g, n) =>
    match s.sched.launches.find g with
    | none => .next s
    | some l =>
      let b := l.block
      let retired := n.state == .cancelling true
      let done := n.predsDone b || retired
      let failed := l.summary.failed || l.summary.watchdog
      if s.sched.stopped || !done || !n.held.isEmpty || s.busyGrid g || s.sched.tposts.any (fun r => r.grid == g) then .next s
      else
        let state := if failed then 2 else if retired then 6 else if n.state == .live then 1 else 4
        s.endGrid g l state (fun s => { s with sched := { s.sched with graph := s.sched.graph.erase g } })

/-- PALLET_TIMER_EXPIRY: TIMER µs after the arrival of the oldest held record, every held record fires (R317). -/
def execPalletTimerExpiry (ctx node slice : Nat) (s : State) : Host.Outcome State Fault Refusal :=
  match s.nodeNamed ctx node with
  | none => .next s
  | some (g, n) =>
    let b := s.blockOf g
    match Table.get [] n.pallets slice with
    | [] => .next s
    | r :: rs =>
      if n.state != .live || b.timer = 0 || decide (s.ns < r.arrived + b.timer * 1000) then .next s
      else .next (s.fire g slice (rs.length + 1))

/-! ### CONTINUATION_RECORD_ARRIVAL (R190, R263, R315, R316, R319) -/

/-- AFFINITY of a record. -/
def recAffinity (r : BitVec 512) : Nat := (r.extractLsb' 0 48).toNat

/-- NODEID of a record. -/
def recNode (r : BitVec 512) : Nat := (r.extractLsb' 48 16).toNat

/-- The key by which a record's home slice is chosen; an address that is not mapped is taken itself. -/
def State.affinityKey (s : State) (ctx va : Nat) : Nat := (s.homeWord ctx va).getD va

/-- A record is taken out of the queue of released records. -/
def State.dropPost (s : State) (idx : Nat) : State := { s with sched := { s.sched with tposts := s.sched.tposts.eraseIdx idx } }

/-- A record enters its pallet, stored in its slice or in a slot of the spill area. -/
def State.holdRecord (s : State) (grid slice : Nat) (n : Node) (r : TPost) (spilled : Option Nat) : State :=
  let rec_ : ContRec := { data := r.data, task := r.task, arrived := s.ns, spilled := spilled, poisoned := false }
  (s.setNode grid { n with pallets := Table.put [] n.pallets slice (Table.get [] n.pallets slice ++ [rec_]) }).pumpGrid grid

/-- Whether an earlier record of the same group is on its way to the same slice. -/
def State.postedBefore (s : State) (idx : Nat) (r : TPost) (slice : Nat) : Bool :=
  (s.sched.tposts.take idx).any (fun x => x.core == r.core && x.tr == r.tr && x.grp == r.grp && x.task == r.task &&
    s.homeSlice (s.affinityKey x.ctx (recAffinity x.data)) == slice)

/-- Commands that a record still waits for. -/
def State.postWaits (s : State) (r : TPost) : Bool :=
  (s.core r.core).hod.flight.any (fun f => f.queue == 0 && !f.done && r.awaits.contains f.seq)

/-- Records that wait in a core's record buffer, which holds 8 (R316). -/
def State.waitingAt (s : State) (core : Nat) : Nat := (s.sched.tposts.filter (fun r => r.core == core && r.waiting)).length

/-- A record that finds its slice and the spill area full waits in its core's record buffer, or with that full is still on its way (R316). -/
def State.bufferPost (s : State) (idx core : Nat) : State :=
  if 8 ≤ s.waitingAt core then s
  else { s with sched := { s.sched with tposts := s.sched.tposts.modify idx (fun x => { x with waiting := true }) } }

/-- CONTINUATION_RECORD_ARRIVAL: a released record reaches its pallet or the spill area, is discarded or cancelled, or waits in
the core's record buffer. -/
def execContinuationRecordArrival (idx : Nat) (s : State) : Host.Outcome State Fault Refusal :=
  match s.sched.tposts[idx]? with
  | none => .next s
  | some r =>
    let key := s.affinityKey r.ctx (recAffinity r.data)
    let slice := s.homeSlice key
    if s.postWaits r || s.postedBefore idx r slice || !s.releaseReady r.ctx (dieOf r.core) key 4 then .next s
    else
      let bad := fun (s : State) => (s.dropPost idx).modSummary r.grid (fun m => { m with badrec := min (m.badrec + 1) (2 ^ 32 - 1) })
      let released := s.release r.ctx (dieOf r.core) key 4
      if !(s.succsOf r.grid).contains (recNode r.data) then .next (bad released)
      else match s.nodeNamed r.ctx (recNode r.data) with
        | none => .next (bad released)
        | some (g, n) =>
          if n.state != .live then .next ((released.dropPost idx).addCancelled g 1)
          else if s.storedAt slice < 2048 then .next ((released.dropPost idx).holdRecord g slice n r none)
          else match s.spillRecord r.ctx r.data with
            | .ok s' k => .next (((s'.release r.ctx (dieOf r.core) key 4).dropPost idx).holdRecord g slice n r (some k))
            | .wait s' => .next s'
            | .refused .. => .next (s.bufferPost idx r.core)

/-- RETIRE: the host retires a node of a context it owns (R309, R325, R350). -/
def execRetire (session node ctx : Nat) (s : State) : Host.Outcome State Fault Refusal :=
  if s.owns session ctx && s.live ctx then .next ({ s with sched := { s.sched with retire := node % 2 ^ 16 + ctx % 2 ^ 8 * 2 ^ 16 } }.retireNode ctx node)
  else .next (s.eventTo session 12 0 [0x20020])

end Sys2Proof.Machine
end

