-- ==== Sys2Proof/Machine/Tasks.lean ====
section
/-!
DEFINITION. Tasks: the life of a task: discard and kill (R345, R346, R348), failure and the watchdog (R322, R324), release of team
state (R194, R215), and the completion of courses (R179).
-/

namespace Sys2Proof.Machine

/-! ### Discard requests (R345) -/

/-- Sets or clears GO on every valid record of a task (R308, R345). -/
def State.setGo (s : State) (teams : List (Nat × Nat)) (go : Bool) : State :=
  teams.foldl (fun s x =>
    let b := s.bindRec x.1 x.2
    if b.getLsbD 0 then s.setBind x.1 x.2 (if go then b ||| 2 else b &&& ~~~2) else s) s

/-- A discard request: an Open task begins to stop, any other refuses. The instruction of a turn in progress is in the current
cycle. -/
def State.requestDiscard (s : State) (task : Nat) (mailbox : Bool) : State × Bool :=
  match s.sched.tasks.find task with
  | none => (s, false)
  | some t =>
    if t.state != .opened then (s, false)
    else ((s.setGo t.teams false).modTask task (fun t => { t with state := .stopping false, mailbox := mailbox, paused := s.ns }), true)

/-! ### The effect of a discard (R346) -/

/-- A discarded team's threads end, its operations leave the engine, and its counters are dropped. -/
def Team.discard (t : Team) : Team :=
  { t with state := .ended, token := none, captures := [],
           groups := t.groups.map (fun g => { g with threads := g.threads.map Thread.exit, counters := [0, 0, 0, 0], posted := [], frame := none }) }

/-- A hod without the commands of a task that its own threads posted, and without its inbox command. -/
def Hod.dropTask (h : Hod) (task : Nat) : Hod :=
  { h with q0 := h.q0.filter (fun x => x.task != task), inbox := h.inbox.filter (· != task), inboxRun := h.inboxRun.filter (· != task),
           cmds := h.cmds.filter (fun e => !(e.2.queue == 0 && e.2.task == task)),
           flight := h.flight.filter (fun f => !(f.queue == 0 && f.task == task)) }

/-- Poisoned words of a team's scratchpad end with it (R391). -/
def State.dropScratchPoison (s : State) (core : Nat) (t : Team) : State :=
  { s with hours := { s.hours with poison := s.hours.poison.filter (fun x => match x with
      | .scratch c w => !(c == core && decide (t.env.scratchBase ≤ 8 * w) && decide (8 * w < t.env.scratchBase + t.env.scratchSize))
      | _ => true) } }

/-- What a discard does to one team of a task; counts that waited for its commands fall (R243). -/
def State.discardTeam (s : State) (task core r : Nat) : State :=
  let s := ((s.team core r).map (s.dropScratchPoison core)).getD s
  let s := s.modTeam core r Team.discard
  let s := s.modCore core (fun k =>
    { k with engine := k.engine.filter (fun o => o.tr != r), cbars := k.cbars.filter (fun c => c.toRec != r), hod := k.hod.dropTask task })
  (s.modDie (dieOf core) (·.releaseLocks (fun w => w.core == core && w.tr == r))).flushFlights core

/-- Whether the turn in progress is a task's. -/
def State.taskTurn (s : State) (task : Nat) : Bool :=
  match s.turn with
  | some t => ((s.team t.core t.tr).map (fun m => m.ids.task == task)).getD false
  | none => false

/-- A task is discarded, or killed when it is not to come back (R346, R348); records that dispatch never took are free at
once, and a STREAM launch's unbound clusters wait with it or are dropped (R306). -/
def State.discardTask (s : State) (task : Nat) (requeue : Bool) : State :=
  match s.sched.tasks.find task with
  | none => s
  | some t =>
    let s := { s with turn := if s.taskTurn task then none else s.turn }
    let s := (s.setGo t.teams false).resolveWhere false (fun _ _ k => k.task == task) (fun _ _ k => k.task == task)
    let s := t.teams.foldl (fun s x => s.discardTeam task x.1 x.2) s
    s.modTask task (fun t => { t with state := .discarding requeue, teams := t.teams.filter (fun x => (s.team x.1 x.2).isSome) })

/-! ### Failure (R322, R324) -/

/-- Whether a team of a task has stopped. -/
def State.hasStopped (s : State) (t : Task) : Bool :=
  t.teams.any (fun x => ((s.team x.1 x.2).map (fun m => match m.state with
    | .stopped .. => true
    | _ => false)).getD false)

/-- Whether a task can fail: it runs, and no discard of it has been requested. -/
def Task.canFail (t : Task) : Bool := !t.failed && (t.state == .opened || t.state == .committed)

/-- A task fails (R324). -/
def State.failTask (s : State) (task : Nat) : State :=
  match s.sched.tasks.find task with
  | none => s
  | some t =>
    if !t.canFail then s
    else
      let s := s.modTask task (fun t => { t with failed := true })
      let s := s.modSummary t.grid (fun m => if t.summary.watchdog then { m with watchdog := true } else { m with failed := true })
      s.failGrid t.grid task

/-- What fails a task (R324): a team of it has stopped, or its watchdog has expired. -/
def State.taskLost (s : State) (t : Task) : Bool := t.summary.watchdog || s.hasStopped t

/-- WATCHDOG_EXPIRY: WATCHDOG ms have passed without an event of the task, and every team of it stops, with no trap cause
(R322). -/
def execWatchdogExpiry (task : Nat) (s : State) : Host.Outcome State Fault Refusal :=
  match s.sched.tasks.find task with
  | none => .next s
  | some t =>
    if s.sched.stopped || !(t.state == .opened || t.state == .committed) || decide (s.ns < t.watch + s.sched.watchdog * 1000000) then .next s
    else
      let s := s.modTask task (fun t => if t.failed then t else { t with summary := { t.summary with watchdog := true } })
      .next (t.teams.foldl (fun s x => s.stopTeam x.1 x.2 0 0 0) s)

/-! ### Summaries (R26, R215) -/

/-- The merged %faultmask of a team (R26). -/
def Team.faults (t : Team) : BitVec 32 × Nat × Nat :=
  let lanes := t.groups.foldl (fun m g => m ||| g.faultmask.lanes) 0
  match t.groups.find? (fun g => g.faultmask.lanes != 0) with
  | some g => (lanes, g.faultmask.kind, g.faultmask.firstpc)
  | none => (lanes, 0, 0)

/-- The summary of a team (R215). -/
def Team.report (t : Team) : Summary :=
  let f := t.faults
  { Summary.empty with
    faultLanes := f.1, faultKind := f.2.1, faultPc := f.2.2,
    faultBy := if f.1 = 0 then none else some (t.ids.cluster, t.ids.team),
    ovrMask := t.bars.zipIdx.foldl (fun (m : BitVec 16) b => if b.1.ovr then m ||| (1#16 <<< b.2) else m) 0,
    trap := match t.state with
      | .stopped cause pc addr at_ => if cause = 0 then none else some (at_, cause, pc, addr)
      | _ => none }

/-- Whether the first of two reports of a fault comes from the lower cluster and team. -/
def faultFirst : Option (Nat × Nat) → Option (Nat × Nat) → Bool
  | some a, some b => decide (a.1 < b.1) || (a.1 == b.1 && decide (a.2 ≤ b.2))
  | some _, none => true
  | none, _ => false

/-- Combines the summaries of two teams or tasks (R215). -/
def Summary.merge (m n : Summary) : Summary :=
  let a := faultFirst m.faultBy n.faultBy
  { m with
    faultLanes := m.faultLanes ||| n.faultLanes,
    faultKind := if a then m.faultKind else n.faultKind, faultPc := if a then m.faultPc else n.faultPc,
    faultBy := if a then m.faultBy else n.faultBy,
    ovrMask := m.ovrMask ||| n.ovrMask,
    trap := match m.trap, n.trap with
      | some x, some y => if x.1 ≤ y.1 then some x else some y
      | some x, none => some x
      | none, y => y,
    underread := sat32 (m.underread + n.underread), countSpill := m.countSpill || n.countSpill, oor := sat32 (m.oor + n.oor) }

/-! ### The end of a task (R306, R345) -/

/-- A discarded task is gone: its records return to their pallet, or its launch to the head of its source (R311, R318); a killed one
returns nothing (R348). -/
def State.taskGone (s : State) (task : Nat) (t : Task) (requeue : Bool) : State :=
  let node := (s.blockOf t.grid).node
  let s := { s with sched := { s.sched with tasks := s.sched.tasks.erase task } }
  let s := s.modSummary t.grid (fun m => { m with discards := min (m.discards + 1) (2 ^ 32 - 1), killed := m.killed || !requeue })
  if !requeue then { s.unspill t.ctx t.gang.records with sched := { s.sched with gangs := s.sched.gangs.filter (fun g => node || g.grid != t.grid) } }
  else if node then s.returnRecords t.gang
  else
    let s := match s.sched.launches.find t.grid with
      | some l => { s with sched := { s.sched with launches := s.sched.launches.insert t.grid { l with courses := 0 } } }
      | none => s
    let rest := s.sched.gangs.filter (fun g => g.grid != t.grid)
    { s with sched := { s.sched with gangs := { t.gang with first := 0 } :: rest } }

/-- The last team state of a task has been released. -/
def State.taskEnd (s : State) (task : Nat) : State :=
  match s.sched.tasks.find task with
  | none => s
  | some t =>
    if !t.teams.isEmpty then s
    else match t.state with
      | .discarding requeue => s.taskGone task t requeue
      | _ =>
        if !t.failed && (s.blockOf t.grid).stream && s.sched.gangs.any (·.grid == t.grid) then s
        else
          let s := { s.unspill t.ctx t.gang.records with sched := { s.sched with tasks := s.sched.tasks.erase task } }
          (s.modSummary t.grid (fun m => m.merge t.summary)).pumpGrid t.grid

/-- TASK_FAILURE: a task of which a team has stopped, or whose watchdog has expired, fails; one without a team is at its end. -/
def execTaskFailure (task : Nat) (s : State) : Host.Outcome State Fault Refusal :=
  match s.sched.tasks.find task with
  | none => .next s
  | some t => if s.taskLost t && !s.sched.stopped then .next ((s.failTask task).taskEnd task) else .next s

/-! ### TEAM_STATE_RELEASE (R194) -/

/-- Whether a packet may write the scratchpad of team k of its poster's cluster: by an element, a scale, the old value of an ATOMIC, or an element
whose place an index gives. -/
def Packet.writesPeer (p : Packet) (k : Nat) : Bool :=
  let hits := fun (a : Nat) => decide (2 ^ 32 ≤ a) && a / 2 ^ 28 % 16 == k
  (p.dstSpace == 1 && (hits p.dst || (p.op == 3 || p.op == 4 || (p.scaledDst && (List.range p.total).any (fun n => hits (p.dstScale + 2 * p.blockOf n))) ||
    (decide (1 < p.total) && (List.range p.total).any (fun n => hits (p.dstAddr n).1))))) ||
    (p.op == 9 && p.srcSpace == 1 && hits p.src)

/-- Whether a command of a team of the same cluster may still write this team's scratchpad. -/
def State.peerWrites (s : State) (t : Team) : Bool :=
  t.ids.peers.any (fun p =>
    let h := (s.core p.1).hod
    h.q0.any (fun x => x.tr == p.2 && x.task == t.ids.task && (Packet.of x.pkt).writesPeer t.ids.team) ||
      h.cmds.any (fun e => e.2.trec == p.2 && (e.2.queue == 0 || e.2.tvalid) && (Packet.of e.2.pkt).writesPeer t.ids.team))

/-- Whether another team of the same cluster still runs. -/
def State.clusterRuns (s : State) (core r : Nat) (t : Team) : Bool :=
  t.ids.peers.any (fun p => p != (core, r) &&
    ((s.team p.1 p.2).map (fun x => x.ids.task == t.ids.task && x.state == .running)).getD false)

/-- Whether a team's state is still held (R194). -/
def State.stateHeld (s : State) (core r : Nat) (t : Team) : Bool :=
  let k := s.core core
  t.state == .running ||
    k.hod.flight.any (fun f => f.queue == 0 && f.tr == r && f.task == t.ids.task && !f.done) ||
    k.hod.cmds.any (fun e => e.2.queue != 0 && e.2.tvalid && e.2.trec == r) ||
    s.sched.tposts.any (fun x => x.core == core && x.tr == r && x.task == t.ids.task) ||
    k.engine.any (fun o => o.tr == r) ||
    k.peerReqs.any (fun q => decide (t.env.scratchBase ≤ 8 * q.place) && decide (8 * q.place < t.env.scratchBase + t.env.scratchSize)) ||
    s.peerWrites t || (t.ids.team == 0 && s.clusterRuns core r t)

/-- Whether a team is the last of its cluster whose state is held. -/
def State.lastOfCluster (s : State) (core r : Nat) (t : Team) : Bool :=
  !t.ids.peers.any (fun p => p != (core, r) && ((s.team p.1 p.2).map (fun x => x.ids.task == t.ids.task)).getD false)

/-- A team's state is released (R194, R215, R269, R308). -/
def State.releaseTeam (s : State) (core r : Nat) (t : Team) : State :=
  let task := t.ids.task
  let discarded := match (s.sched.tasks.find task).map (·.state) with
    | some (.discarding _) => true
    | _ => false
  let last := s.lastOfCluster core r t
  let p := fun (k : LineCount) => k.task == task && ((decide (k.scope ≤ 1) && k.filler == (core, r)) || (k.scope == 2 && last && k.cluster == t.ids.cluster))
  let s := s.resolveWhere (!discarded) (fun _ _ k => p k) (fun _ _ k => p k)
  let s := (s.modDie (dieOf core) (·.releaseLocks (fun w => w.core == core && w.tr == r))).dropScratchPoison core t
  let s := s.modTask task (fun x => { x with teams := x.teams.filter (· != (core, r)),
                                             summary := if discarded then x.summary else x.summary.merge t.report })
  let s := match t.state with
    | .stopped cause _ _ at_ =>
      if cause = 0 then s
      else match s.sched.launches.find t.ids.grid with
        | some l => { s with sched := { s.sched with launches := s.sched.launches.insert t.ids.grid { l with lastStop := max l.lastStop at_ } } }
        | none => s
    | _ => s
  let s := s.setBind core r (s.bindRec core r &&& ~~~3)
  s.modCore core (fun k => { k with teams := k.teams.erase r, cbars := k.cbars.filter (fun c => c.toRec != r) })

/-- TEAM_STATE_RELEASE: a team's held state is released, its summary delivered, and with the last one its task ends; a stop that the
scheduler has not yet taken up fails the task first. -/
def execTeamStateRelease (core tr : Nat) (s : State) : Host.Outcome State Fault Refusal :=
  match s.team core tr with
  | none => .next s
  | some t =>
    if s.stateHeld core tr t then .next s
    else
      let lost := ((s.sched.tasks.find t.ids.task).map s.taskLost).getD false
      let s := if lost then s.failTask t.ids.task else s
      .next ((s.releaseTeam core tr t).taskEnd t.ids.task)

/-! ### DISCARD_REPORT (R345) -/

/-- DISCARD_REPORT: every core has reported. A commit point up to the stop lets the task go on; otherwise it is discarded. -/
def execDiscardReport (task : Nat) (s : State) : Host.Outcome State Fault Refusal :=
  match s.sched.tasks.find task with
  | none => .next s
  | some t =>
    match t.state with
    | .stopping commit =>
      if s.sched.stopped || s.taskTurn task then .next s
      else if commit then
        let s := (s.setGo t.teams true).modTask task (fun t =>
          { t with state := .committed, mailbox := false, watch := t.watch + (s.ns - t.paused) })
        .next (if t.mailbox then s.endBox 2 else s)
      else
        let s := (s.discardTask task true).taskEnd task
        .next (if t.mailbox then s.endBox 0 else s)
    | _ => .next s

/-! ### COURSE_COMPLETION (R179, R254) -/

/-- Whether a team has arrived at its course or has ended. -/
def Team.atCourse (t : Team) : Bool :=
  t.state != .running || t.groups.all (fun g => g.threads.all (fun th => match th.status with
    | .exited => true
    | .wait (.course _) => true
    | _ => false))

/-- Whether a command that the team's threads posted is still open. -/
def State.teamBusy (s : State) (core r : Nat) (t : Team) : Bool :=
  (s.core core).hod.flight.any (fun f => f.queue == 0 && f.tr == r && f.task == t.ids.task && !f.done) ||
    (t.state == .running && t.groups.any (fun g => g.posted.any (fun p => !p.2)))

/-- A completed course in one team: the waiting threads go on with the predicate of R179. -/
def Team.passCourse (t : Team) (v : Byte) : Team :=
  { t with courses := t.courses + 1,
           groups := t.groups.map (fun g => { g with threads := g.threads.map (fun th => match th.status with
             | .wait (.course d) => (th.setPred d v).wake g.turns
             | _ => th) }) }

/-- The dies on which a context has teams (R398). -/
def State.teamDies (s : State) (ctx : Nat) : BitVec 4 :=
  s.cores.foldl (fun (m : BitVec 4) c => if c.2.teams.any (fun t => t.2.ids.ctx == ctx) then m ||| (1#4 <<< dieOf c.1) else m) 0

/-- The tasks of a grid whose teams take part in its courses: a discarded one's have ended. -/
def State.courseTasks (s : State) (grid : Nat) : Table Task := s.sched.tasks.filter (fun t => t.2.grid == grid && (match t.2.state with
  | .discarding _ => false
  | _ => true))

/-- COURSE_COMPLETION: every team of the grid, whichever task it belongs to, has arrived or has ended, every command is complete, and the course steps
can end. -/
def execCourseCompletion (grid : Nat) (s : State) : Host.Outcome State Fault Refusal :=
  match s.sched.launches.find grid with
  | none => .next s
  | some l =>
    let xs := (s.courseTasks grid).flatMap (fun t => t.2.teams)
    let ts := xs.filterMap (fun x => (s.team x.1 x.2).map (fun m => (x.1, x.2, m)))
    let waits := ts.any (fun x => x.2.2.state == .running)
    let steps := fun (k : LineCount) => k.launch == grid && (k.scope == 3 || k.scope == 4)
    if !waits || ts.length != xs.length || !ts.all (fun x => x.2.2.atCourse && !s.teamBusy x.1 x.2.1 x.2.2) || !s.courseReady l.ctx steps then .next s
    else
      let stopped := decide (l.lastCourse < l.lastStop) || ts.any (fun x => match x.2.2.state with
        | .stopped cause _ _ at_ => cause != 0 && decide (l.lastCourse < at_)
        | _ => false)
      let tasks := (s.courseTasks grid).map (·.1)
      let s := s.courseSteps l.ctx steps
      let s := xs.foldl (fun s x => s.modTeam x.1 x.2 (·.passCourse (if stopped then 0x00 else 0xFF))) s
      let s := match s.sched.launches.find grid with
        | some l =>
          let l := { l with courses := l.courses + 1, lastCourse := s.tick, teamDies := s.teamDies l.ctx }
          { s with sched := { s.sched with launches := s.sched.launches.insert grid l } }
        | none => s
      .next (tasks.foldl (fun s t => s.watchRestart t) s)

end Sys2Proof.Machine
end

