-- ==== Sys2Proof/Machine/Scheduler.lean ====
section
/-!
DEFINITION. Scheduler: acceptance of launches (R298 to R305, R314), the shipped policy (R310 to R312), dispatch (R308) and the inbox
(R320): LAUNCH_ACCEPT, GANG_BIND, BIND_RECORD_VALID, BIND_RECORD_GO and INBOX_COMMAND.
-/

namespace Sys2Proof.Machine

/-! ### Acceptance (R298, R299, R303, R305, R314) -/

/-- A launch queue that cannot be read is disabled, and the host told (R299); READ is what could be read of it. -/
def State.disableQueue (s : State) (q read : Nat) : State :=
  let e := Table.get LaunchQ.reset s.sched.queues q
  ({ s with sched := { s.sched with queues := s.sched.queues.insert q { e with en := false } } }).raiseEvent 13 e.ctx [q, read]

/-- An access of the scheduler core: its value, none where it is refused. -/
def HostGot.asGot : HostGot → Got (Option Nat)
  | .ok s v => .ok s (some v)
  | .refused s _ _ => .ok s none
  | .wait s => .wait s

/-- Brings a code page of 64 KiB into HBM and gives its place, waiting for a page fault to be resolved; refused where it cannot be mapped or read
(R305). -/
def State.codePage (s : State) (ctx va : Nat) : HostGot :=
  (hostPlace s ctx va .read).bind (fun s key =>
    if key / 2 ^ 52 = 0 then .ok s key
    else match s.walk ctx va with
      | .page l =>
        if key / 2 ^ 52 ≠ 1 then .refused s .nomap 0
        else
          let r := s.remapPage ctx va l.base l.size
          if r.2 then hostPlace r.1 ctx va .read else .refused r.1 .nomap 0
      | _ => .refused s .nomap 0)

/-- Maps n pages of a code region from a page number on (R305): by page number, their places; none where one cannot be mapped. -/
def State.codePages (s : State) (ctx first : Nat) : Nat → Got (Option (Table Nat))
  | 0 => .ok s (some [])
  | n + 1 =>
    (State.codePages s ctx first n).bind (fun s t =>
      match t with
      | none => .ok s none
      | some t => (s.codePage ctx ((first + n) * 2 ^ 16)).asGot.bind (fun s a => .ok s (a.map (fun a => t.insert (first + n) a))))

/-- Whether a node's inbox area passes the grant of a die (R303, REASON 10). -/
def State.inboxBad (s : State) (ctx : Nat) (b : Block) : Bool :=
  (List.range Config.dies).any (fun d => decide ((s.grant ctx d).2 < b.inbox + b.inboxn * b.inboxSize))

/-- Lists a launch under its grid. -/
def State.setLaunch (s : State) (grid : Nat) (l : Launch) : State := { s with sched := { s.sched with launches := s.sched.launches.insert grid l } }

/-- The REASON of a block (R303), or 0, with its code pages; it waits for pages that are being resolved. -/
def State.checkLaunch (s : State) (grid : Nat) (l : Launch) : Got (Nat × Table Nat) :=
  let b := l.block
  (schedPlace s l.ctx b.compl).asGot.bind (fun s at_ =>
    if b.compl % 128 != 0 || at_.isNone then .ok s (12, [])
    else if b.reasonLow != 0 then .ok s (b.reasonLow, [])
    else (s.codePages l.ctx (b.codeBase / 2 ^ 16) ((b.codeBase + b.codeLen - 1) / 2 ^ 16 - b.codeBase / 2 ^ 16 + 1)).bind (fun s pages =>
      match pages with
      | none => .ok s (6, [])
      | some pages =>
        .ok s (if b.reasonHigh != 0 then (b.reasonHigh, [])
          else if b.node && ((s.nodeNamed l.ctx b.nodeid).isSome || s.inboxBad l.ctx b) then (10, [])
          else if (s.setLaunch grid l).placeable grid 0 then (0, pages)
          else (11, []))))

/-- Live nodes of a context. -/
def State.nodeCount (s : State) (ctx : Nat) : Nat := (s.sched.graph.filter (fun n => s.gridCtx n.1 == ctx)).length

/-- A team of a context has come to a die. -/
def State.teamOnDie (s : State) (ctx die : Nat) : State :=
  { s with sched := { s.sched with launches := s.sched.launches.map (fun (e : Nat × Launch) =>
      (e.1, if e.2.ctx = ctx && !e.2.ended then { e.2 with teamDies := e.2.teamDies ||| (1#4 <<< die) } else e.2)) } }

/-- A block that has been read and checked is accepted: rejected at once, registered as a node, or made a waiting gang. A registration beyond
4,096 live nodes is held (R314). -/
def State.enterLaunch (s : State) (grid : Nat) (l : Launch) : State :=
  let b := l.block
  if l.reason == 0 && b.node && Nat.ble 4096 (s.nodeCount l.ctx) then s
  else
    let s := { s with sched := { s.sched with gridSeq := grid + 1 } }.setLaunch grid l
    let s := s.addWord l.ctx (l.ring + 8) 1
    if l.reason != 0 then s.finishGrid grid 5
    else if b.node then
      { s with sched := { s.sched with
          nodes := s.sched.nodes.insert (nodeKey l.ctx b.nodeid) grid,
          graph := s.sched.graph.insert grid { grid := grid, state := .live, predEnds := 0, pallets := [] } } }
    else
      { s with sched := { s.sched with
          gangs := s.sched.gangs ++ [{ grid := grid, first := 0, records := [], slice := 0, since := s.ns, poisoned := false }] } }

/-- A launch as its block is read. -/
def Launch.fresh (b : Block) (ctx queue ring order : Nat) (dies : BitVec 4) : Launch :=
  { block := b, ctx := ctx, queue := queue, ring := ring, order := order, node := if b.node then b.nodeid else 0, pages := [], reason := 0,
    summary := Summary.empty, courses := 0, lastCourse := 0, lastStop := 0, teamDies := dies, ended := false }

/-- A block that has been read is checked, and accepted once nothing of its acceptance waits. -/
def State.acceptBlock (s : State) (q rd : Nat) (b : Block) : State :=
  let e := Table.get LaunchQ.reset s.sched.queues q
  let grid := s.sched.gridSeq
  let l := Launch.fresh b e.ctx q e.base rd (s.teamDies e.ctx)
  match s.checkLaunch grid l with
  | .ok s r => if s.courseReady e.ctx (fun _ => false) then s.enterLaunch grid { l with reason := r.1, pages := r.2 } else s
  | .wait s => s
  | _ => s

/-- The block at READ of a launch ring, once it is published and its LAP matches (R298); sectors 1 to 3 are read after that. -/
def launchBlock (s : State) (e : LaunchQ) (rd : Nat) : Got (Option Block) :=
  let va := e.base + 256 + 256 * (rd % 2 ^ e.logn)
  (s.ringRead e.ctx (e.base + 24) 8).bind (fun s tail =>
    if tail ≤ rd then .ok s none
    else (s.ringRead e.ctx va 64).bind (fun s v =>
      if v / 2 ^ 8 % 2 ^ 8 ≠ expectedLap rd e.logn then .ok s none
      else (s.ringRead e.ctx (va + 64) 192).bind (fun s w => .ok s (some (BitVec.ofNat 2048 (v + w * 2 ^ 512))))))

/-- LAUNCH_ACCEPT: the scheduler takes the block at READ of a queue that is served (R298 to R300). -/
def execLaunchAccept (q : Nat) (s : State) : Host.Outcome State Fault Refusal :=
  let e := Table.get LaunchQ.reset s.sched.queues q
  if !e.en || e.frozen || s.sched.stopped || !s.served then .next s
  else match s.ringRead e.ctx (e.base + 8) 8 with
    | .wait s => .next s
    | .stop .. | .poison .. => .next (s.disableQueue q 0)
    | .ok s rd => match launchBlock s e rd with
      | .ok s (some b) => .next (s.wakeUp.acceptBlock q rd b)
      | .ok s none | .wait s => .next s
      | .stop .. | .poison .. => .next (s.disableQueue q rd)

/-! ### The policy (R310, R311) -/

/-- The effective level of a waiting gang. -/
def State.gangLevel (s : State) (g : Gang) : Nat := min 3 ((s.blockOf g.grid).prio + (s.ns - g.since) / (s.sched.ageing * 1000))

/-- The source of a gang: its launch queue, or its node. -/
def State.gangSource (s : State) (g : Gang) : Nat :=
  match s.sched.launches.find g.grid with
  | some l => if l.block.node then 16 + g.grid else l.queue
  | none => 0

/-- The gangs of a context that can be chosen: every successor of their launch is registered (R319), and no discard of their own launch is under way
(R306). -/
def State.eligible (s : State) (ctx : Nat) : List Gang :=
  s.sched.gangs.filter (fun g => s.gridCtx g.grid == ctx && (s.succsOf g.grid).all (s.registered ctx) &&
    !((s.blockOf g.grid).stream && s.sched.tasks.any (fun t => t.2.grid == g.grid && t.2.leaving)))

/-- The gang that a list's members give way to: the one that has waited longest. -/
def oldestGang : List Gang → Option Gang
  | [] => none
  | g :: gs => some (gs.foldl (fun best x => if x.since < best.since then x else best) g)

/-- The gang that the scheduler chooses in a partition (R310): one it chose and could not place stays chosen. -/
def State.chooseGang (s : State) (ctx : Nat) : Option Gang :=
  let ws := s.eligible ctx
  match (s.sched.stuck.find ctx).filter (fun g => ws.contains g) with
  | some g => some g
  | none =>
    let top := ws.foldl (fun m g => max m (s.gangLevel g)) 0
    let us := ws.filter (fun g => s.gangLevel g == top)
    let ids := us.map s.gangSource
    let next := ids.filter (fun i => decide (Table.get 0 s.sched.rr ctx ≤ i))
    match (if next.isEmpty then ids else next) with
    | [] => none
    | i :: is => oldestGang (us.filter (fun g => s.gangSource g == is.foldl min i))

/-- Tasks that may be discarded for a gang, in the order in which they are taken (R311). -/
def State.victims (s : State) (ctx prio : Nat) : List Nat :=
  (List.range prio).flatMap (fun p => ((s.sched.tasks.filter (fun t =>
    t.2.ctx == ctx && t.2.state == .opened && (s.blockOf t.2.grid).prio == p)).map (·.1)).reverse)

/-- Requests the discards that make room for a gang, as few as the placement needs (R311). -/
def State.preempt (s : State) (ctx : Nat) (g : Gang) : State :=
  let vs := s.victims ctx (s.blockOf g.grid).prio
  let fits := fun (k : Nat) => ((s.without (fun n t => t.leaving || (vs.take k).contains n)).bindGang g).isSome
  match (List.range (vs.length + 1)).find? fits with
  | none => s
  | some k => (vs.take k).foldl (fun s n => (s.requestDiscard n false).1) s

/-- GANG_BIND: the scheduler chooses a waiting gang of a context's partition and binds it, or asks for room (R310 to R312). -/
def execGangBind (ctx : Nat) (s : State) : Host.Outcome State Fault Refusal :=
  if s.sched.stopped || !s.served then .next s
  else match s.chooseGang ctx with
    | none => .next s
    | some g =>
      match s.wakeUp.bindGang g with
      | some s' => .next { s' with sched := { s'.sched with rr := s'.sched.rr.insert ctx (s.gangSource g + 1), stuck := s'.sched.stuck.erase ctx } }
      | none =>
        let s := { s with sched := { s.sched with stuck := s.sched.stuck.insert ctx g } }
        .next (if s.sched.preempt then s.preempt ctx g else s)

/-- Waiting gangs that have no placement left are removed (R310): a launch ends with STATE 5 and REASON 11, once the clusters of it that are bound have
ended, and a node's gang counts as a failed task of its node. -/
def State.removeUnplaceable (s : State) (ctx : Nat) : State :=
  (s.sched.gangs.filter (fun g => s.gridCtx g.grid == ctx && !s.placeable g.grid g.slice)).foldl (fun s g =>
    let s := { s with sched := { s.sched with gangs := s.sched.gangs.erase g } }
    if (s.blockOf g.grid).node then
      (((s.unspill ctx g.records).addCancelled g.grid g.records.length).modSummary g.grid (fun m => { m with failed := true })).failGrid g.grid noLaunch
    else match s.sched.launches.find g.grid with
      | some l => ((s.sched.tasks.filter (fun t => t.2.grid == g.grid)).map (·.1)).foldl (fun s t => s.taskEnd t) (s.setLaunch g.grid { l with reason := 11 })
      | none => s) s

/-! ### Dispatch (R7, R8, R27, R308) -/

/-- Two ranges that share a place. -/
def rangesMeet (a b : Nat × Nat) : Bool := decide (a.1 < b.1 + b.2) && decide (b.1 < a.1 + a.2)

/-- Whether a record's registers, scratchpad or binding overlap those of another valid record of the core (R308); teams of one
context may share a binding (R211). -/
def State.recordClash (s : State) (core r : Nat) : Bool :=
  let b := s.bindRec core r
  let cb := fun (x : BitVec 512) => (recField x 273 6, recField x 279 7)
  (s.occupied core).any (fun o =>
    let x := s.bindRec core o
    o != r && x.getLsbD 0 &&
      ((List.range Config.slots).any (fun k => (s.residents core o k).any (fun u => (s.residents core r k).any (rangesMeet u))) ||
        rangesMeet (recField x 256 8, recField x 264 9) (recField b 256 8, recField b 264 9) ||
        (rangesMeet (cb x) (cb b) && (cb x != cb b || recField x 8 8 != recField b 8 8))))

/-- The teams of a cluster by %team: core and record. -/
def State.clusterPeers (s : State) (t : Task) (cluster : Nat) : List (Nat × Nat) :=
  t.teams.filter (fun x => recField (s.bindRec x.1 x.2) 32 32 == cluster)

/-- The team that dispatch makes of a bind record and its launch block. -/
def State.dispatchTeam (s : State) (core r : Nat) (task : Nat) (t : Task) (l : Launch) : Team :=
  let b := s.bindRec core r
  let blk := l.block
  let f := recField b 2 2
  let team := recField b 4 4
  let ids : TeamIds := { team := team, clx := team % blk.width, cly := team / blk.width, cluster := recField b 32 32, grid := recField b 64 64,
                         task := task, slot := recField b 128 4, ctx := recField b 8 8, peers := s.clusterPeers t (recField b 32 32) }
  let env : TeamEnv := { scratchBase := recField b 256 8 * 4096, scratchSize := recField b 264 9 * 4096, constBase := recField b 273 6 * 4096,
                         constSize := recField b 279 7 * 4096, codeBase := blk.codeBase, codeLen := blk.codeLen, codePages := l.pages,
                         entries := (List.range 4).map blk.entry, handlers := (List.range 4).map blk.handler, xmode := blk.xmode,
                         stream := blk.stream, quota := blk.quota }
  { Team.fresh ids env
    (blk.roles.zipIdx.map (fun e => Group.fresh e.1 ((e.2 + f) % 4) (blk.budget e.1) (blk.entry e.1) (s.coreCycles core) blk.xmode))
    ((List.range 16).map blk.barrier) with courses := l.courses }

/-- BIND_RECORD_VALID: the scheduler writes VALID, and dispatch takes the team or refuses the record. -/
def execBindRecordValid (core rec_ : Nat) (s : State) : Host.Outcome State Fault Refusal :=
  let b := s.bindRec core rec_
  match s.sched.tasks.find? (fun t => t.2.teams.contains (core, rec_)) with
  | none => .next s
  | some (task, t) =>
    match s.sched.launches.find t.grid with
    | none => .next s
    | some l =>
      if s.sched.stopped || b.getLsbD 0 || b.getLsbD 22 || (s.team core rec_).isSome then .next s
      else if s.recordClash core rec_ then .next (s.setBind core rec_ (b ||| (1#512 <<< 22)))
      else .next (((s.setBind core rec_ (b ||| 1)).setTeam core rec_ (s.dispatchTeam core rec_ task t l)).teamOnDie t.ctx (dieOf core))

/-- A team's groups start (R22, R23): %timer counts from now. -/
def State.startTeam (s : State) (core r : Nat) : State :=
  s.modTeam core r (fun t => { t with groups := t.groups.map (fun g => { g with start := s.coreCycles core }) })

/-- A launch started from a queue acquires at system scope on the dies of its teams before their first word (R263). -/
def State.startAcquire (s : State) (ctx : Nat) (teams : List (Nat × Nat)) : State :=
  ((teams.map (fun x => dieOf x.1)).eraseDups).foldl (fun s d => s.nearFence ctx d 5 true) s

/-- BIND_RECORD_GO: once every record of a task is valid and its inbox is filled, the scheduler writes GO, in order of task numbers
(R308, R320, R321, R345). -/
def execBindRecordGo (task : Nat) (s : State) : Host.Outcome State Fault Refusal :=
  match s.sched.tasks.find task with
  | none => .next s
  | some t =>
    let b := s.blockOf t.grid
    let fresh := t.teams.filter (fun x => !(s.bindRec x.1 x.2).getLsbD 1)
    let ready := t.teams.all (fun x => (s.bindRec x.1 x.2).getLsbD 0)
    let first := t.state == .bound
    let before := s.sched.tasks.any (fun x => decide (x.1 < task) && x.2.state == .bound)
    if s.sched.stopped || !ready || fresh.isEmpty || !t.inboxDone || (first && before) || !(first || t.state == .opened || t.state == .committed) then .next s
    else
      let s := if b.node then s else s.startAcquire t.ctx fresh
      let s := fresh.foldl (fun s x => s.startTeam x.1 x.2) (s.setGo fresh true)
      if !first then .next s
      else
        let s := s.modTask task (fun t => { t with state := if b.nonidem then .committed else .opened, watch := s.ns })
        .next (s.modSummary t.grid (fun m => { m with gangs := sat32 (m.gangs + 1), records := sat32 (m.records + t.gang.records.length) }))

/-! ### The inbox (R217, R222, R263, R320) -/

/-- The bytes of an inbox: the header and the records. -/
def inboxBits (b : Block) (slice : Nat) (rs : List Nat) : Nat :=
  rs.length + (b.nodeid + slice % 128 * 2 ^ 16) * 2 ^ 64 + rs.foldr (fun r acc => r % 2 ^ 512 + 2 ^ 512 * acc) 0 * 2 ^ 512

/-- Whether every line of a tile-store range takes writes of a context: none is frozen or thawing (R209). -/
def State.tileOpen (s : State) (ctx die p size : Nat) : Bool :=
  (List.range (size / 64 + 1)).all (fun k => match s.tileWriteState ctx (.tile die) (p + 64 * k) with
    | .frozen _ | .thawing => false
    | _ => true)

/-- Bytes of a tile-store range before its first Spent line (R208). -/
def State.beforeSpent (s : State) (die p size : Nat) : Nat :=
  match (List.range (size / 256 + 2)).find? (fun k => (((s.die die).counts.find (p / 256 + k)).map (fun c => c.count == 0)).getD false) with
  | none => size
  | some k => min size ((p / 256 + k) * 256 - p)

/-- The contents of a firing's records: those that had spilled come from the spill area (R320); none where one cannot be read. -/
def readRecords (ctx : Nat) : List ContRec → State → Got (Option (List Nat))
  | [], s => .ok s (some [])
  | r :: rs, s =>
    (match r.spilled with
     | none => Got.ok s (some r.data.toNat)
     | some n => ((hostPlace s ctx ((s.ctx ctx).spillAt n) .read).bind (fun s key => hostValue s ctx ((s.ctx ctx).spillAt n) key 64)).asGot).bind (fun s v =>
      match v with
      | none => .ok s none
      | some v => (readRecords ctx rs s).bind (fun s o => .ok s (o.map (fun l => v :: l))))

/-- The inbox command of a task ends: its records leave the spill area. -/
def State.inboxEnds (s : State) (core task : Nat) (t : Task) : State :=
  let s := (s.unspill t.ctx t.gang.records).modHod core (fun h => { h with inboxRun := h.inboxRun.filter (· != task) })
  s.modTask task (fun t => { t with inboxDone := true, gang := { t.gang with records := t.gang.records.map (fun (r : ContRec) => { r with spilled := none }) } })

/-- A hod fills the inbox of a task's gang, and the acquires of R263 follow; it waits for regions, homes and pages, and stops at a Spent line or at a
record that cannot be read (log 42). -/
def fillInbox (s : State) (core task : Nat) (t : Task) : Got Unit :=
  let b := s.blockOf t.grid
  let die := dieOf core
  let p := (s.grant t.ctx die).1 + b.inbox + t.slot * b.inboxSize
  let size := 64 + 64 * t.gang.records.length
  let keys := t.gang.records.map (fun r => s.affinityKey t.ctx (recAffinity r.data))
  if !s.tileOpen t.ctx die p size || (List.range (size / 256 + 2)).any (fun k => s.bankBusy (.tile die) (p + 256 * k)) || !keys.all (fun k => s.acquireReady t.ctx die k 4) then .wait s
  else (readRecords t.ctx t.gang.records s).bind (fun s rs =>
    let n := s.beforeSpent die p (if rs.isNone then 0 else size)
    let s := if n = 0 then s else s.nearWrite (.tile die) p (inboxBits b t.gang.slice (rs.getD []) % 2 ^ (8 * n)) n
    .ok ((keys.foldl (fun s k => s.acquire t.ctx die k 4) s).inboxEnds core task t) ())

/-- A hod takes an inbox command that was given to it, while it has room (R217). -/
def State.takeInbox (s : State) (core : Nat) : State :=
  s.modHod core (fun h =>
    match h.inbox with
    | [] => h
    | t :: rest => if h.cmds.length + h.inboxRun.length < 128 then { h with inbox := rest, inboxRun := h.inboxRun ++ [t] } else h)

/-- INBOX_COMMAND: a hod takes the inbox command given to it first, while it has room, and carries out the oldest of those taken that need not wait. -/
def execInboxCommand (core : Nat) (s : State) : Host.Outcome State Fault Refusal :=
  if !s.hodUp core then .next s
  else
    let s := s.takeInbox core
    .next ((s.core core).hod.inboxRun.foldl (fun (a : State × Bool) task =>
      if a.2 then a
      else match a.1.sched.tasks.find task with
        | none => (a.1.modHod core (fun h => { h with inboxRun := h.inboxRun.filter (· != task) }), true)
        | some t => match fillInbox a.1 core task t with
          | .ok s _ => (s, true)
          | .wait s => (s, false)
          | _ => a) (s, false)).1

end Sys2Proof.Machine
end

