-- ==== Sys2Proof/Machine/Contexts.lean ====
section
/-!
DEFINITION. Contexts: the operations of the context mailbox (R328 to R330, R335, R341, R345, R347, R348): CREATE, TEARDOWN, SETREGION,
FREEZE, THAW, INVAL, DISCARD and REPART, and what ends them.
-/

namespace Sys2Proof.Machine

/-! ### The mailbox (R330) -/

/-- The owner id of a session. -/
def State.ownerOf (s : State) (session : Nat) : Nat := ((s.host.sessions.find session).map (·.owner)).getD 0

/-- Whether the scheduler core works: it has not failed twice (R393), and the package is not in P3 (R411). -/
def State.schedUp (s : State) : Bool := !s.sched.stopped && s.hours.power != .p3

/-- Whether the mailbox holds an operation of a session that is still to be taken up, and can be. -/
def State.boxHas (s : State) (session op : Nat) : Bool :=
  s.box.busy && !s.box.begun && s.box.op == op && s.box.session == session && s.schedUp

/-- The checks of every operation but CREATE on the context it names; a number that names no context is a bad value. -/
def State.boxCheck (s : State) (session ctx : Nat) : Option Nat :=
  if ctx = 0 ∨ 64 < ctx then some 1
  else if (s.ctx ctx).state = .free then some 2
  else if (s.ctx ctx).owner ≠ s.ownerOf session then some 3
  else if (s.ctx ctx).state ≠ .live then some 2
  else none

/-- An operation of the mailbox: its checks, then its effect on the context. -/
def State.boxOp (s : State) (session op : Nat) (f : State → Nat → State) : Host.Outcome State Fault Refusal :=
  if !s.boxHas session op then .next s
  else match s.boxCheck session s.box.ctx with
    | some r => .next (s.endBox r)
    | none => .next (f s s.box.ctx)

/-- The operation in the mailbox has been taken up and goes on. -/
def State.beginBox (s : State) : State := { s with box := { s.box with begun := true } }

/-! ### Images (R328, R330) -/

/-- Bits [lo + w - 1 : lo] of a context image. -/
def imageField (i : BitVec 1024) (lo w : Nat) : Nat := (i.extractLsb' lo w).toNat

/-- The grants of an image, by die: base and length in units of 1,024 lines. -/
def imageGrants (i : BitVec 1024) : List (Nat × Nat) := (List.range 4).map (fun d => (imageField i (320 + 16 * d) 7, imageField i (328 + 16 * d) 8))

/-- The image at a physical address of HBM, as it is stored (log 52); none where there is none or a word is poisoned. -/
def State.readImage (s : State) (at_ : Nat) : Got (Option (BitVec 1024)) :=
  if Config.hbmBytes < at_ + 128 then .ok s none
  else if !(s.homeUp at_ && s.homeUp (at_ + 127)) then .wait s
  else if s.hours.poison.any (fun x => match x with
    | .far w => decide (at_ / 8 ≤ w) && decide (w ≤ (at_ + 127) / 8)
    | _ => false) then .ok s none
  else .ok s (some (BitVec.ofNat 1024 (s.far.readLE at_ 128)))

/-- Fields of an image that are zero: reserved bits, low bits of addresses, STATE, OWNER and FROZENWR. -/
def imageZeros : List (Nat × Nat) := [(0, 64), (64, 12), (112, 16), (327, 1), (343, 1), (359, 1), (375, 1), (448, 16), (528, 32), (560, 464)]

/-- Ranges (start, length) that meet; an empty one meets nothing. -/
def spansMeet (a b : Nat × Nat) : Bool := decide (a.1 < b.1 + b.2) && decide (b.1 < a.1 + a.2)

/-- The cores and grants that a context holds or is about to hold. -/
def Ctx.claims (k : Ctx) : List (BitVec 192 × List (Nat × Nat)) := (k.cores, k.grant) :: k.repart.toList

/-- Whether an image takes nothing of another context (R328). -/
def State.imageDisjoint (s : State) (ctx : Nat) (i : BitVec 1024) : Bool :=
  (s.ctxs.filter (fun e => e.1 != ctx && e.2.state != .free)).all (fun e =>
    e.2.claims.all (fun c => (c.1 &&& i.extractLsb' 128 192) == 0 && (c.2.zip (imageGrants i)).all (fun g => !spansMeet g.1 g.2)) &&
      !spansMeet (e.2.poolBase, e.2.poolLen) (imageField i 384 32, imageField i 416 32))

/-- Whether an image is well formed, lies within the package and is disjoint from the other contexts. -/
def State.imageOk (s : State) (ctx : Nat) (i : BitVec 1024) : Bool :=
  imageZeros.all (fun z => imageField i z.1 z.2 == 0) &&
    (imageGrants i).zipIdx.all (fun g => decide ((g.1.1 + g.1.2) * 1024 ≤ (s.healthyBanks g.2).length * 256)) &&
    decide ((imageField i 384 32 + imageField i 416 32) * 2 ^ 16 ≤ Config.hbmBytes) && s.imageDisjoint ctx i

/-- The entry that CREATE writes. -/
def Ctx.ofImage (i : BitVec 1024) (owner : Nat) : Ctx :=
  { Ctx.reset with
    state := .creating, owner := owner, ptroot := imageField i 64 48, cores := i.extractLsb' 128 192, grant := imageGrants i,
    poolBase := imageField i 384 32, poolLen := imageField i 416 32, spill := imageField i 448 48, spillLen := imageField i 496 16,
    peers := i.extractLsb' 512 16 }

/-! ### CREATE (R329) -/

/-- Key slots of the keystone (log 86): every context that is not free and every shared key takes one. -/
def State.keySlotsLeft (s : State) : Bool := decide ((s.ctxs.filter (fun e => e.2.state != .free)).length + s.keystone.shared.length < 1024)

/-- CREATE. -/
def execCreate (session : Nat) (s : State) : Host.Outcome State Fault Refusal :=
  if !s.boxHas session 1 then .next s
  else
    let c := s.box.ctx
    if c = 0 ∨ 64 < c then .next (s.endBox 1)
    else if (s.ctx c).state ≠ .free then .next (s.endBox 2)
    else match s.readImage s.box.arg0 with
      | .ok s (some i) =>
        if !s.imageOk c i then .next (s.endBox 1)
        else if !s.keySlotsLeft then .next (s.endBox 4)
        else .next (((s.setCtx c (Ctx.ofImage i (s.ownerOf session))).tlbRemove (fun l => l.ctx == c)).beginBox)
      | .wait s => .next s
      | _ => .next (s.endBox 1)

/-- CONTEXT_KEY_DERIVED: the keystone has derived a key from the owner id and a fresh nonce, and the context is live (R329, R405). -/
def execContextKeyDerived (ctx : Nat) (s : State) : Host.Outcome State Fault Refusal :=
  if (s.ctx ctx).state ≠ .creating || s.hours.power == .p3 then .next s
  else
    let n := s.keystone.nonces
    let s := s.modCtx ctx (fun k => { k with state := .live, key := some (Config.derivedKey k.owner n), keyNo := n })
    let s := { s with keystone := { s.keystone with nonces := n + 1 } }
    .next (if s.box.busy && s.box.op == 1 && s.box.ctx == ctx then s.endBox 0 else s)

/-! ### TEARDOWN (R329, R347, R348) -/

/-- A task is killed, whatever its commit state (R348). -/
def State.killTask (s : State) (task : Nat) : State :=
  match s.sched.tasks.find task with
  | none => s
  | some t => match t.state with
    | .discarding _ => s.modTask task (fun t => { t with state := .discarding false })
    | _ => (s.discardTask task false).taskEnd task

/-- No launch queue and no memory ring of a context is served any more. -/
def State.stopQueues (s : State) (ctx : Nat) : State :=
  let s := { s with sched := { s.sched with queues := s.sched.queues.map (fun (e : Nat × LaunchQ) => (e.1, if e.2.ctx = ctx then { e.2 with en := false } else e.2)) } }
  { s with cores := s.cores.map (fun (c : Nat × Core) =>
      let h := c.2.hod
      (c.1, { c.2 with hod := { h with queues := h.queues.map (fun (e : Nat × QEntry) => (e.1, if e.2.ctx = ctx then { e.2 with en := false } else e.2)),
                                        ready := h.ready.filter (fun e => (h.entry e.1).ctx != ctx) } })) }

/-- Launches that wait without a task end as killed ones do. -/
def State.killWaiting (s : State) (ctx : Nat) : State :=
  let gs := s.sched.gangs.filter (fun g => s.gridCtx g.grid == ctx)
  let s := { s with sched := { s.sched with gangs := s.sched.gangs.filter (fun g => s.gridCtx g.grid != ctx), stuck := s.sched.stuck.erase ctx } }
  gs.foldl (fun s g => s.modSummary g.grid (fun m => { m with killed := true })) s

/-- Held FREEZE and THAW events and held commands of a context are abandoned. -/
def State.abandonHeld (s : State) (ctx : Nat) : State :=
  let s := s.modCtx ctx (fun k => { k with regions := k.regions.map (fun (e : Nat × Region) => (e.1, { e.2 with held := [] })) })
  let held := s.cores.flatMap (fun c => (c.2.hod.cmds.filter (fun e => e.2.ctx == ctx && e.2.state == .suspended)).map (fun e => (c.1, e.1)))
  held.foldl (fun s x => s.abandon x.1 x.2) s

/-- A context begins to be torn down. -/
def State.tearDown (s : State) (ctx : Nat) : State :=
  let s := (s.modCtx ctx (fun k => { k with state := .tearing })).stopQueues ctx
  let nodes := (s.sched.graph.filter (fun n => s.gridCtx n.1 == ctx)).map (fun n => (s.blockOf n.1).nodeid)
  let s := nodes.foldl (fun s n => s.retireNode ctx n) s
  let tasks := (s.sched.tasks.filter (fun t => t.2.ctx == ctx)).map (·.1)
  ((tasks.foldl State.killTask s).killWaiting ctx).abandonHeld ctx

/-- TEARDOWN. -/
def execTeardown (session : Nat) (s : State) : Host.Outcome State Fault Refusal :=
  s.boxOp session 2 (fun s c => s.beginBox.tearDown c)

/-- Whether something of a context that is torn down is still in progress. -/
def State.ctxBusy (s : State) (ctx : Nat) : Bool :=
  s.sched.tasks.any (fun t => t.2.ctx == ctx) || s.sched.launches.any (fun l => l.2.ctx == ctx && !l.2.ended) ||
    s.cores.any (fun c => c.2.hod.cmds.any (fun e => e.2.ctx == ctx) || c.2.hod.flight.any (fun f => f.ctx == ctx && !f.done)) ||
    (s.ctx ctx).regions.any (fun r => r.2.draining || r.2.thawing)

/-- The tile-store bytes of some grant units of a die lose their contents, which are unspecified from now on, with their count states, locks and poison
(R214, R329). -/
def State.forgetGrant (s : State) (die base len : Nat) : State :=
  let lo := base * grantBytes
  let n := len * grantBytes
  let inside := fun (p : Nat) => decide (lo ≤ p) && decide (p < lo + n)
  let s := s.modDie die (fun d =>
    { d with tile := d.tile.scramble (Config.freeByte s.tick) inside, counts := d.counts.filter (fun e => !inside (256 * e.1)), locks := d.locks.filter (fun e => !inside (8 * e.1)) })
  { s with hours := { s.hours with poison := s.hours.poison.filter (fun x => match x with
      | .tile d w => !(d == die && inside (8 * w))
      | _ => true) } }

/-- A core passes to no context: what its scratchpad and constant store hold is unspecified to a later context (R214, R404). -/
def State.forgetCore (s : State) (core : Nat) : State :=
  let s := s.modCore core (fun k =>
    { k with scratch := k.scratch.scramble (Config.freeByte s.tick) (fun _ => true),
             const := k.const.scramble (fun a => Config.freeByte s.tick (a + 2 ^ 20)) (fun _ => true), constBinds := [] })
  { s with hours := { s.hours with poison := s.hours.poison.filter (fun x => match x with
      | .scratch c _ | .const c _ => c != core
      | _ => true) } }

/-- Every L2 sector and counted line of a context is dropped without write-back (R329). -/
def State.dropL2 (s : State) (ctx : Nat) : State :=
  (List.range Config.dies).foldl (fun s d =>
    let mine := s.sectorsOf d (fun _ x => x.ctx == ctx)
    let s := s.modDie d (fun x => { x with l2counts := x.l2counts.filter (fun e => !mine.any (fun k => k / 4 == e.1)) })
    mine.foldl (fun s k => s.dropSector d k) s) s

/-- A context that is torn down becomes free (R329): its key is destroyed, and what it stored under it no key reads any more (R403). -/
def State.freeCtx (s : State) (ctx : Nat) : State :=
  let k := s.ctx ctx
  let s := s.dropL2 ctx
  let s := s.tlbRemove (fun l => l.ctx == ctx)
  let s := k.grant.zipIdx.foldl (fun s g => s.forgetGrant g.2 g.1.1 g.1.2) s
  let s := ((List.range Config.cores).filter (fun c => k.cores.getLsbD c)).foldl State.forgetCore s
  let s := (List.range Config.dies).foldl (fun s d => s.modDie d (fun x => { x with windows := x.windows.filter (fun w => w.2.ctx != ctx) })) s
  { s with ctxs := s.ctxs.insert ctx Ctx.reset, releases := s.releases.filter (fun r => r.ctx != ctx),
           sched := { s.sched with nodes := s.sched.nodes.filter (fun n => n.1 / 2 ^ 16 != ctx), rr := s.sched.rr.erase ctx,
                                   faults := s.sched.faults.filter (fun f => f.ctx != ctx) } }

/-- TEARDOWN_COMPLETE: every team state of the context is released and every command ended, and it becomes free; the event goes to
the session that owned it. -/
def execTeardownComplete (ctx : Nat) (s : State) : Host.Outcome State Fault Refusal :=
  if (s.ctx ctx).state ≠ .tearing || s.ctxBusy ctx then .next s
  else
    let mine := s.box.busy && s.box.op == 2 && s.box.ctx == ctx
    .next ((if mine then s.endBox 0 else s).freeCtx ctx)

/-! ### SETREGION (R338, R341) -/

/-- The region entry that two words describe, or none where they are malformed (R338). -/
def regionOf (s : State) (owner a0 a1 : Nat) : Option Region :=
  if a0 % 2 = 0 then some Region.reset
  else
    let r : Region := { Region.reset with valid := true, priv := a0.testBit 1, ownerDie := bitsOf a0 2 2, keyid := bitsOf a0 16 8,
                                          base := bitsOf a0 32 32, size := bitsOf a1 0 32 }
    let zeros := bitsOf a0 4 12 == 0 && bitsOf a0 24 8 == 0 && bitsOf a1 32 32 == 0
    let range := decide (1 ≤ r.size) && decide (r.base + r.size ≤ 2 ^ 32)
    if zeros && range && (r.priv || r.ownerDie == 0) && (r.keyid == 0 || s.keystone.shared.any (fun x => x.1 == owner && x.2.1 == r.keyid)) then some r else none

/-- Every die drains its Dirty sectors of a range and drops its Clean copies of them (R341). -/
def State.flushRange (s : State) (ctx : Nat) (r : Region) : State :=
  let p : SectorTest := fun k _ => s.inRange ctx r.range.1 r.range.2 k
  (List.range Config.dies).foldl (fun s d =>
    (s.sectorsOf d (fun k x => p k x && x.st == .clean && !(s.die d).pins k)).foldl (fun s k => s.dropSector d k) s) (s.drainAll p)

/-- What SETREGION does to a range before the entry takes effect (R341). -/
def State.clearRange (s : State) (ctx : Nat) (r : Region) : State := if r.valid then (s.resolveRange ctx r).flushRange ctx r else s

/-- Whether what SETREGION drains of a range can drain now (R398). -/
def State.rangeDrains (s : State) (ctx : Nat) (r : Region) : Bool :=
  !r.valid || (s.resolveRange ctx r).drainable (fun k _ => s.inRange ctx r.range.1 r.range.2 k) (List.range Config.dies)

/-- SETREGION; it waits for homes that are out of service. -/
def execSetregion (session : Nat) (s : State) : Host.Outcome State Fault Refusal :=
  s.boxOp session 3 (fun s c =>
    let old := s.region c s.box.idx
    if old.fcount ≠ 0 || old.thawing || old.draining then s.endBox 2
    else match regionOf s (s.ctx c).owner s.box.arg0 s.box.arg1 with
      | none => s.endBox 1
      | some r =>
        if !s.rangeDrains c old || !s.rangeDrains c r then s else (((s.clearRange c old).clearRange c r).setRegion c s.box.idx { r with held := old.held }).endBox 0)

/-! ### FREEZE, THAW, INVAL and DISCARD -/

/-- MAILBOX_FREEZE (R192, R342). -/
def execMailboxFreeze (session : Nat) (s : State) : Host.Outcome State Fault Refusal :=
  s.boxOp session 4 (fun s c => s.beginBox.seqApply c s.box.idx { thaw := false, asker := .mailbox, awaits := [] })

/-- MAILBOX_THAW (R192, R342). -/
def execMailboxThaw (session : Nat) (s : State) : Host.Outcome State Fault Refusal :=
  s.boxOp session 5 (fun s c => s.beginBox.seqApply c s.box.idx { thaw := true, asker := .mailbox, awaits := [] })

/-- INVAL (R335). -/
def execInval (session : Nat) (s : State) : Host.Outcome State Fault Refusal :=
  s.boxOp session 6 (fun s c =>
    if s.box.arg1 = 0 then (s.inval c 0 (2 ^ 48)).endBox 0
    else if 2 ^ 48 < s.box.arg0 + s.box.arg1 then s.endBox 1
    else (s.inval c s.box.arg0 (s.box.arg0 + s.box.arg1)).endBox 0)

/-- DISCARD (R345): of a task that is open, or whose discard is already requested; its result comes with the report. -/
def execDiscard (session : Nat) (s : State) : Host.Outcome State Fault Refusal :=
  s.boxOp session 7 (fun s c =>
    match s.sched.tasks.find s.box.arg0 with
    | none => s.endBox 2
    | some t =>
      if t.ctx ≠ c then s.endBox 2
      else match t.state with
        | .stopping _ => (s.modTask s.box.arg0 (fun t => { t with mailbox := true })).beginBox
        | .opened => (s.requestDiscard s.box.arg0 true).1.beginBox
        | _ => s.endBox 2)

/-! ### REPART (R329) -/

/-- REPART: PEERS is taken at once, CORES and GRANT when nothing that leaves is in use any more. -/
def execRepart (session : Nat) (s : State) : Host.Outcome State Fault Refusal :=
  s.boxOp session 8 (fun s c =>
    match s.readImage s.box.arg0 with
    | .ok s (some i) =>
      if !s.imageOk c i then s.endBox 1
      else (s.modCtx c (fun k => { k with peers := i.extractLsb' 512 16, repart := some (i.extractLsb' 128 192, imageGrants i) })).endBox 0
    | .wait s => s
    | _ => s.endBox 1)

/-- Whether a team of a context holds state on a core of a set. -/
def State.boundOn (s : State) (ctx : Nat) (p : Nat → Bool) : Bool := s.sched.tasks.any (fun t => t.2.ctx == ctx && t.2.teams.any (fun x => p x.1))

/-- Whether a command of a context is in progress on a die. -/
def State.commandsOn (s : State) (ctx die : Nat) : Bool :=
  s.cores.any (fun c => dieOf c.1 == die && c.2.hod.cmds.any (fun e => e.2.ctx == ctx))

/-- Units of a grant that another one does not have. -/
def grantLost (old new : Nat × Nat) : List Nat := ((List.range old.2).map (old.1 + ·)).filter (fun u => !(decide (new.1 ≤ u) && decide (u < new.1 + new.2)))

/-- REPART_TAKES_EFFECT. -/
def execRepartTakesEffect (ctx : Nat) (s : State) : Host.Outcome State Fault Refusal :=
  let k := s.ctx ctx
  match k.repart with
  | none => .next s
  | some (cores, grant) =>
    let gone := fun (c : Nat) => k.cores.getLsbD c && !cores.getLsbD c
    let lost := (k.grant.zip grant).zipIdx.map (fun g => (g.2, grantLost g.1.1 g.1.2))
    let used := lost.any (fun l => !l.2.isEmpty && (s.boundOn ctx (fun c => dieOf c == l.1) || s.commandsOn ctx l.1))
    if s.boundOn ctx gone || used then .next s
    else
      let s := lost.foldl (fun s l => l.2.foldl (fun s u => s.forgetGrant l.1 u 1) s) s
      let s := ((List.range Config.cores).filter gone).foldl State.forgetCore s
      .next ((s.modCtx ctx (fun k => { k with cores := cores, grant := grant, repart := none })).removeUnplaceable ctx)

end Sys2Proof.Machine
end

