-- ==== Sys2Proof/Machine/Control.lean ====
section
/-!
DEFINITION. Control: the run trailer (R65), branches and calls (R116), the major CTL (R117 to R123), and the core's own
steps ISSUE_TURN (R7 to R12) and LONG_LATENCY_WRITE_LANDS (R67 to R70).
-/

namespace Sys2Proof.Machine

/-! ### The trailer (R65) -/

/-- A trailer's effect on a pending write: its window stops, its registers named are awaited, and what was to be
written to a run temporary is dropped. -/
def Pending.trailer (p : Pending) (names : List Nat) (all : Bool) : Pending :=
  { p with regs := p.regs.filter (fun e => decide (e.1 < 256)), inRun := false,
           awaited := p.awaited ++ names.filter (fun n => p.regs.any (·.1 = n)), awaitAll := p.awaitAll || all }

/-- The fields a trailer names, as absolute registers. -/
def trailerNames (th : Thread) (f g h : BitVec 7) : List Nat :=
  ([f.toNat, g.toNat, h.toNat].filter (· != 127)).map th.ix

/-- The pending writes of a thread after a trailer; those that have landed are in the registers. -/
def Thread.closeRun (th : Thread) (names : List Nat) (all : Bool) : Thread :=
  let ps := (th.pend.map (fun p => p.trailer names all)).filter (fun p => !(p.regs.isEmpty && p.preds.isEmpty && !p.matrix))
  let th := { th with pend := ps.filter (fun p => !p.landed), pos := 0, unchecked := false,
                      regs := th.regs.filter (fun e => decide (e.1 < 256)) }
  (ps.filter (·.landed)).foldl Thread.land th

/-- A thread that a trap return takes back to where it trapped (R31): its own handler mode has ended. -/
def Thread.trapReturn (th : Thread) (fr : Frame) (sv : SavedThread) : Thread :=
  { th with pc := fr.trappc, wb := sv.wb, pos := sv.pos, xfer := sv.xfer, unchecked := fr.pcWritten,
            regs := sv.temps.foldl (fun rs e => rs.insert e.1 e.2) (th.regs.filter (fun e => decide (e.1 < 256))) }

/-- A thread after its run's trailer: transfers take place (R63, R64). -/
def Thread.trailer (th : Thread) (len : Nat) (names : List Nat) (all : Bool) (fr : Option Frame) (lane : Nat) : Thread :=
  let x := th.xfer
  let th := { th.closeRun names all with xfer := none, pc := th.pc + BitVec.ofNat 64 len }
  match x with
  | none => th
  | some (.target a) => { th with pc := a, unchecked := true }
  | some .trapReturn =>
    match fr with
    | none => th
    | some fr =>
      match fr.saved.find? (fun sv => sv.lane = lane) with
      | some sv => th.trapReturn fr sv
      | none => th

/-- Handler mode after threads have returned (R31): once the last has, the held threads become runnable again and the
frame is cleared. A thread that was held is woken by on_wake, as one that was blocked is (the model's choice, log 77). -/
def Group.returned (g : Group) (lanes : List Nat) : Group :=
  match g.frame with
  | none => g
  | some fr =>
    let saved := fr.saved.map (fun sv => if lanes.contains sv.lane then { sv with back := true } else sv)
    if saved.all (fun sv => sv.back) then
      { g with frame := none,
               threads := g.threads.map (fun th =>
                 if th.held then (if th.status == .run then { th.wake g.turns with held := false } else { th with held := false }) else th) }
    else { g with frame := some { fr with saved := saved } }

/-- The trap that a trap return takes at its target (R31, R64): a %trappc that the handler wrote is a branch target; the word of the trap itself
may stand inside a run. -/
def returnTrap (s : State) (team : Team) (fr : Frame) : Option Nat :=
  let pc := fr.trappc.toNat
  if fr.pcWritten then targetTrap s team pc
  else if !inCode team.env pc then some 4
  else if pc % 4 ≠ 0 then some 2
  else none

/-- TRL: the issue turn ends (R9). The target of a trap return is checked first (R31, R64). -/
def execTrl (f g h : BitVec 7) (a : BitVec 1) (s : State) : Host.Outcome State Fault Refusal :=
  issue (.trl f g h a) s (fun s is =>
    let back := (is.lanes.filter (fun c => c.th.xfer == some .trapReturn)).map (·.lane)
    let fr := is.grp.frame
    let bad := match fr with
      | some r => if back.isEmpty then none else (returnTrap s is.team r).map (fun c => (c, r.trappc))
      | none => none
    match bad with
    | some (code, pc) => .next (s.stopTeam is.t.core is.t.tr (trapCause code 0 0 back) pc pc)
    | none =>
      let s := complete s is.t (is.lanes.map (fun c =>
        (c.lane, c.th.trailer is.t.len (trailerNames c.th f g h) (a == 1#1) fr c.lane))) 1
      let s := s.modGroup is.t.core is.t.tr is.t.grp (·.returned back)
      let drop := fun (k : Capture) => !back.isEmpty && k.grp == is.t.grp &&
        (fr.any (fun r => r.pcWritten && r.trappc.toNat != k.ipc))
      .next { s.modTeam is.t.core is.t.tr (fun t => { t with captures := t.captures.filter (fun k => !drop k) }) with turn := none })

/-! ### Shared operations of CTL -/

/-- Completes a control instruction: every lane goes on, and the acting ones change by `f`. -/
def control (i : Instr) (s : State) (is : Issue) (f : LaneCtx → Thread → Thread) : Host.Outcome State Fault Refusal :=
  .next (complete s is.t (is.lanes.map (fun c =>
    let th := c.th.issueNear i is.t none
    (c.lane, if onEl c.m.guard 1 0 then f c th else th))) 1)

/-- A trap whose resume address is the next word (R53, R122): the instruction counts in its run. -/
def trapAfter (s : State) (is : Issue) (code : Nat) (flags : FFlags) (detail : Nat) (lanes : List Nat) : Host.Outcome State Fault Refusal :=
  let s' := s.modGroup is.t.core is.t.tr is.t.grp (fun g => is.lanes.foldl (fun g c => g.modThread c.lane (·.advance is.t.len)) g)
  match takeTrapFor s' is.t.core is.t.tr is.t.grp is.t.lanes code flags detail lanes 0 (BitVec.ofNat 64 (is.t.ipc + is.t.len)) with
  | some s' => .next (s'.spend is.t.core 1)
  | none => trapWaits s is.t

/-! ### Branches (R116) -/

/-- Whether a thread takes a B-format transfer. -/
def takes (c : LaneCtx) (g : BitVec 4) (n : BitVec 1) : Bool := ((c.th.pred g.toNat).getLsbD 0) != (n == 1#1)

/-- The target of a B word (R64). -/
def branchTarget (is : Issue) (o : BitVec 20) : Word := BitVec.ofNat 64 is.t.ipc + (o.signExtend 64) * 4

/-- BR. -/
def execBr (g : BitVec 4) (n : BitVec 1) (o : BitVec 20) (s : State) : Host.Outcome State Fault Refusal :=
  issue (.br g n o) s (fun s is =>
    .next (complete s is.t (is.lanes.map (fun c =>
      let th := c.th.issueNear (.br g n o) is.t none
      (c.lane, if takes c g n then { th with xfer := some (.target (branchTarget is o)) } else th))) 1))

/-- CALL: the link register takes the address after the trailer (R64). A thread that does not take the call leaves its link register as it is, a
pending write to it too (the model's choice, log 83). -/
def execCall (g : BitVec 4) (n : BitVec 1) (o : BitVec 20) (s : State) : Host.Outcome State Fault Refusal :=
  issue (.call g n o) s (fun s is =>
    let link := is.grp.budget - 1
    .next (complete s is.t (is.lanes.map (fun c =>
      let th := c.th.issueNear (.call g n o) is.t none
      (c.lane, if takes c g n then
        { ((th.cancel [link] []).setReg link (BitVec.ofNat 64 (is.t.ipc + is.t.len + 4))) with
          xfer := some (.target (branchTarget is o)) } else th))) 1))

/-! ### CTL (R117 to R123) -/

/-- NOP. -/
def execNop (s : State) : Host.Outcome State Fault Refusal := issue .nop s (fun s is => control .nop s is (fun _ th => th))

/-- YIELD: the issue turn ends (R120). -/
def execYield (s : State) : Host.Outcome State Fault Refusal :=
  issue .yield s (fun s is =>
    let s' := complete s is.t (is.lanes.map (fun c => (c.lane, c.th.issueNear .yield is.t none))) 1
    .next (if is.acting.isEmpty then s' else { s' with turn := none }))

/-- EXIT (R119); in handler mode the trap becomes unhandled (R30). -/
def execExit (s : State) : Host.Outcome State Fault Refusal :=
  issue .exit s (fun s is =>
    match is.grp.frame, is.actingLanes.any is.grp.inHandler with
    | some fr, true => .next (s.stopTeam is.t.core is.t.tr fr.cause fr.trappc fr.trapaddr)
    | _, _ =>
      let s' := complete s is.t (is.lanes.map (fun c =>
        let th := c.th.issueNear .exit is.t none
        (c.lane, if onEl c.m.guard 1 0 then th.exit else th))) 1
      let s' := s'.exitLanes is.t.core is.t.tr is.t.grp is.actingLanes
      if s.engineOver s' is.t.core then stall s is.t.core else .next s')

/-- RET: to the link register. -/
def execRet (s : State) : Host.Outcome State Fault Refusal :=
  issue .ret s (fun s is => control .ret s is (fun c th => { th with xfer := some (.target (c.th.reg (is.grp.budget - 1))) }))

/-- RET.trap (R31, R118); outside handler mode the prologue has taken its trap. -/
def execRetTrap (s : State) : Host.Outcome State Fault Refusal :=
  issue .retTrap s (fun s is =>
    control .retTrap s is (fun _ th => { th with xfer := some .trapReturn }))

/-- JMPR. -/
def execJmpr (a : BitVec 7) (s : State) : Host.Outcome State Fault Refusal :=
  issue (.jmpr a) s (fun s is => control (.jmpr a) s is (fun c th => { th with xfer := some (.target (c.th.rd a)) }))

/-- TRAP (R122). -/
def execTrap (c : BitVec 16) (s : State) : Host.Outcome State Fault Refusal :=
  issue (.trap c) s (fun s is =>
    if is.acting.isEmpty then quiet (.trap c) s is else trapAfter s is 9 0 c.toNat is.t.lanes)

/-- BKPT (R122). -/
def execBkpt (s : State) : Host.Outcome State Fault Refusal :=
  issue .bkpt s (fun s is => if is.acting.isEmpty then quiet .bkpt s is else trapAfter s is 10 0 0 is.t.lanes)

/-- An instruction that reads or writes flags (R25, R53): its acting threads wait for their floating-point results, which land. -/
def withFlags (s : State) (is : Issue) (f : Issue → Host.Outcome State Fault Refusal) : Host.Outcome State Fault Refusal :=
  let ls := is.lanes.map (fun c => if onEl c.m.guard 1 0 then c.th.landFloat.map (fun th => { c with th := th }) else some c)
  if ls.any (·.isNone) then stall s is.t.core else f { is with lanes := ls.filterMap id }

/-- TFENCE (R53). -/
def execTfence (s : State) : Host.Outcome State Fault Refusal :=
  issue .tfence s (fun s is => withFlags s is (fun is =>
    let hit := is.acting.filter (fun c => c.th.enabledFlags != 0)
    if hit.isEmpty then quiet .tfence s is
    else trapAfter s is 8 (hit.foldl (fun f c => f ||| c.th.enabledFlags) 0) 0 (hit.map (·.lane))))

/-- WIN (R16, R121); the prologue has taken the trap of a base at or above the budget. -/
def execWin (b : BitVec 5) (s : State) : Host.Outcome State Fault Refusal :=
  issue (.win b) s (fun s is => control (.win b) s is (fun _ th => { th with wb := 8 * b.toNat }))

/-- The special registers (R22). -/
def specialValue (s : State) (is : Issue) (c : LaneCtx) (n : Nat) : Word :=
  let t := is.team
  let fr := is.grp.frame
  let m := is.grp.faultmask
  match n with
  | 0x00 => BitVec.ofNat 64 c.lane
  | 0x01 => BitVec.ofNat 64 is.t.grp
  | 0x02 => BitVec.ofNat 64 t.ids.team
  | 0x03 => BitVec.ofNat 64 is.t.core
  | 0x04 => BitVec.ofNat 64 (dieOf is.t.core)
  | 0x05 => BitVec.ofNat 64 t.ids.clx
  | 0x06 => BitVec.ofNat 64 t.ids.cly
  | 0x07 => BitVec.ofNat 64 t.ids.cluster
  | 0x08 => BitVec.ofNat 64 t.ids.grid
  | 0x09 => BitVec.ofNat 64 (t.ids.task * 16 + t.ids.slot)
  | 0x0A => BitVec.ofNat 64 is.grp.role
  | 0x0B => BitVec.ofNat 64 (s.coreCycles is.t.core)
  | 0x0C => BitVec.ofNat 64 (s.coreCycles is.t.core - is.grp.start)
  | 0x0D => c.th.xmode.setWidth 64
  | 0x0E => c.th.fflags.setWidth 64
  | 0x0F => c.th.ffpc
  | 0x10 => BitVec.ofNat 64 (m.lanes.toNat + m.kind * 2 ^ 32 + m.firstpc * 2 ^ 36)
  | 0x11 => (fr.map (·.cause)).getD 0
  | 0x12 => (fr.map (·.trappc)).getD 0
  | 0x13 => (fr.map (·.trapaddr)).getD 0
  | 0x14 => c.th.seed
  | _ =>
    let p := t.leader is.t.core is.t.tr
    BitVec.ofNat 64 (t.courses % 2 ^ 32 + ((s.team p.1 p.2).map (·.cluPhases)).getD 0 % 2 ^ 32 * 2 ^ 32)

/-- SRD (R22, R25, R123). -/
def execSrd (d : BitVec 7) (n : BitVec 6) (s : State) : Host.Outcome State Fault Refusal :=
  issue (.srd d n) s (fun s is =>
    let read := fun (is : Issue) =>
      finishSync (.srd d n) s is (fun c => LaneOut.reg (c.th.ix d.toNat) (specialValue s is c n.toNat)) (fun _ => none)
    if n.toNat == 0x0E || n.toNat == 0x0F then withFlags s is read else read is)

/-- A thread's special register written (R24, R25, R123); %trappc is the group's. -/
def Thread.writeSpecial (th : Thread) (n : Nat) (v : Word) : Thread :=
  match n with
  | 0x0D => { th with xmode := v.setWidth 17 }
  | 0x0E => { th with fflags := v.setWidth 6 }
  | 0x0F => { th with ffpc := v }
  | 0x14 => { th with seed := v }
  | _ => th

/-- SWR; handler threads that write %trappc do so in ascending order, the others to no effect (log 14). The prologue has taken the trap of a bad
value of %xmode. -/
def execSwr (a : BitVec 7) (n : BitVec 6) (s : State) : Host.Outcome State Fault Refusal :=
  issue (.swr a n) s (fun s is =>
    let k := n.toNat
    let setPc := fun (g : Group) => match g.frame, (is.acting.filter (fun c => g.inHandler c.lane)).getLast? with
      | some fr, some c => { g with frame := some { fr with trappc := c.th.rd a, pcWritten := true } }
      | _, _ => g
    let s' := if k = 0x12 then s.modGroup is.t.core is.t.tr is.t.grp setPc else s
    let write := fun (is : Issue) => control (.swr a n) s' is (fun c th => th.writeSpecial k (c.th.rd a))
    if k == 0x0E || k == 0x0F then withFlags s is write else write is)

/-- FSTC (R123). -/
def execFstc (d : BitVec 7) (s : State) : Host.Outcome State Fault Refusal :=
  issue (.fstc d) s (fun s is => withFlags s is (fun is => control (.fstc d) s is (fun c th =>
    { (th.setReg (c.th.ix d.toNat) (c.th.fflags.setWidth 64)) with fflags := 0, ffpc := 0 })))

/-! ### ISSUE_TURN (R7 to R12) -/

/-- The lanes of a group that can issue (R9). -/
def Group.runnableLanes (g : Group) : List Nat :=
  (g.threads.zipIdx.filter (fun e => e.1.runnable)).map (·.2)

/-- The owed thread that comes first (R11): smallest stamp, then lowest PC, then lowest lane. -/
def firstOwed (ths : List (Nat × Thread)) : Option (Nat × Thread) :=
  ths.foldl (fun best e =>
    match best with
    | none => some e
    | some b => if e.2.stamp < b.2.stamp || (e.2.stamp == b.2.stamp && decide (e.2.pc.toNat < b.2.pc.toNat)) then some e else some b) none

/-- choose_issue_set (R11): the group's marks after the choice, and the issue set; none without a runnable thread. -/
def Group.chooseSet (g : Group) : Option (Group × List Nat) :=
  let run := g.runnableLanes
  let T := g.turns + 1
  let owed := fun (ths : List Thread) => run.filterMap (fun l => (ths[l]?).bind (fun th => if th.owed then some (l, th) else none))
  let ths := if (owed g.threads).isEmpty then
      g.threads.mapIdx (fun l th => if run.contains l then { th with owed := true, stamp := T } else th)
    else g.threads
  match firstOwed (owed ths) with
  | none => none
  | some c =>
    let set := run.filter (fun l => ((ths[l]?).map (fun th => th.pc == c.2.pc)).getD false)
    some ({ g with turns := T, threads := ths.mapIdx (fun l th => if set.contains l then { th with owed := false } else th) }, set)

/-- Whether a core's team record may issue (R305, R308, R345, R390): VALID and GO are set, the team runs, its task is
not held for containment, and its core and die are in service. -/
def State.mayIssue (s : State) (c r : Nat) (t : Team) : Bool :=
  let b := Table.get 0 (s.core c).binds r
  b.getLsbD 0 && b.getLsbD 1 && t.state == .running && !s.hours.contains t.ids.task &&
    !s.hours.fenced.cores.contains c && (s.die (dieOf c)).state == .online

/-- The groups of a slot that have a runnable thread and may issue, by record and group, in the order of the round robin
from position `from?` on (R9). -/
def State.candidates (s : State) (c slot : Nat) : List (Nat × Nat) :=
  let all := (s.core c).teams.flatMap (fun e =>
    if s.mayIssue c e.1 e.2 then
      (e.2.groups.zipIdx.filter (fun g => g.1.slot == slot && !g.1.runnableLanes.isEmpty)).map (fun g => (e.1, g.2))
    else [])
  let pos := (s.core c).rr.getD slot 0
  all.filter (fun e => decide (pos ≤ e.1 * 32 + e.2)) ++ all.filter (fun e => decide (e.1 * 32 + e.2 < pos))

/-- The slot on which a turn issues, and its team's task. -/
def State.turnSlot (s : State) (t : Turn) : Option (Nat × Nat) :=
  (s.team t.core t.tr).bind (fun m => (m.groups[t.grp]?).map (fun g => (g.slot, m.ids.task)))

/-- The turn in progress is set aside, so that another slot may issue. -/
def State.park (s : State) : State :=
  match s.turn with
  | none => s
  | some t =>
    match s.turnSlot t with
    | none => { s with turn := none }
    | some x => { s with turn := none, parked := s.parked ++ [{ slot := x.1, task := x.2, turn := t }] }

/-- Whether a set-aside turn is a slot's. -/
def Parked.isOf (p : Parked) (core slot : Nat) : Bool := p.turn.core == core && p.slot == slot

/-- The set-aside turn of a slot. -/
def State.parkedTurn (s : State) (core slot : Nat) : Option Parked := s.parked.find? (·.isOf core slot)

/-- The lanes of a set-aside turn that can still issue: a trap of the group, a stop of the team and a discard end the turn (R9, R30, R346). -/
def State.parkedLanes (s : State) (p : Parked) : List Nat :=
  match s.team p.turn.core p.turn.tr with
  | none => []
  | some m =>
    if s.mayIssue p.turn.core p.turn.tr m && m.ids.task == p.task then
      match m.groups[p.turn.grp]? with
      | none => []
      | some g => p.turn.lanes.filter (fun l => ((g.threads[l]?).map Thread.runnable).getD false)
    else []

/-- A new turn of a slot: its next group chooses its issue set (R9, R11). -/
def State.newTurn (s : State) (core slot : Nat) : Option State :=
  match s.candidates core slot with
  | [] => none
  | (r, g) :: _ =>
    match ((s.team core r).bind (fun t => t.groups[g]?)).bind Group.chooseSet with
    | none => none
    | some (grp, set) =>
      let pc := (set.head?.bind (fun l => grp.threads[l]?)).map (fun th => th.pc.toNat)
      let s := (s.modGroup core r g (fun _ => grp)).modCore core (fun k => { k with rr := k.rr.set slot (r * 32 + g + 1) })
      some { s with turn := some { core := core, tr := r, grp := g, lanes := set, pfx := none, ipc := pc.getD 0, len := 4, closes := false } }

/-- A slot issues: its set-aside turn goes on, or it gives a new one. -/
def State.takeTurn (s : State) (core slot : Nat) : Option State :=
  match s.parkedTurn core slot with
  | none => s.newTurn core slot
  | some p =>
    let rest := { s with parked := s.parked.filter (fun q => !q.isOf core slot) }
    match s.parkedLanes p with
    | [] => rest.newTurn core slot
    | ls => some { rest with turn := some { p.turn with lanes := ls } }

/-- Whether the turn in progress is a slot's. -/
def State.ownTurn (s : State) (core slot : Nat) : Bool :=
  match s.turn with
  | none => false
  | some t => t.core == core && (s.turnSlot t).any (·.1 == slot)

/-- ISSUE_TURN: a slot gives a turn to its next group, which chooses its issue set (R9, R11). A turn of the slot goes on instead, and another
slot's turn in progress is set aside. -/
def execIssueTurn (core slot : Nat) (s : State) : Host.Outcome State Fault Refusal :=
  if s.ownTurn core slot then .next s else .next ((s.park.takeTurn core slot).getD s)

/-! ### LONG_LATENCY_WRITE_LANDS (R67 to R70) -/

/-- A pending write lands: within its window the old value is still read, so the new one is kept beside it. -/
def Thread.landNth (th : Thread) (idx : Nat) : Thread :=
  match th.pend[idx]? with
  | none => th
  | some p =>
    if !p.known then th
    else if p.inRun && decide (0 < p.win) then { th with pend := th.pend.modify idx (fun p => { p with landed := true }) }
    else { th with pend := th.pend.eraseIdx idx }.land p

/-- LONG_LATENCY_WRITE_LANDS. -/
def execLongLatencyWriteLands (core tr grp lane idx : Nat) (s : State) : Host.Outcome State Fault Refusal :=
  .next (s.modThread core tr grp lane (·.landNth idx))

end Sys2Proof.Machine
end

