-- ==== Sys2Proof/Machine/FloatOps.lean ====
section
/-!
DEFINITION. FloatOps: the majors FPA and FPC (R96 to R99): floating-point arithmetic, comparison, class, minimum and
maximum.
-/

namespace Sys2Proof.Machine

/-! ### Shared operations -/

/-- One lane of FADD to FNMA (R97): `f` gives the exact value and its flags from a, b and d; `useD` whether d is read. -/
def fpLane (t : BitVec 2) (d a b : BitVec 7) (useD : Bool) (f : Bool → Exact → Exact → Exact → Exact × FFlags) (c : LaneCtx) :
    LaneOut :=
  let T := Fmt.ofFt t
  floatLane T d true (fun r i =>
    let x := T.read r.ftz (el T.width (c.th.rd a) i)
    let y := T.read r.ftz (el T.width (c.th.rd b) i)
    let z := if useD then T.read r.ftz (el T.width (c.th.rd d) i) else (.fin false 0 0, 0)
    let v := f (r.rm == 2) x.1.toExact y.1.toExact z.1.toExact
    let e := T.round r v.1
    (e.1, x.2 ||| y.2 ||| z.2 ||| v.2 ||| e.2)) c

/-- One lane of FABS, FNEG and FCPS (R98): the sign bit alone changes, and a NaN gives the canonical NaN. -/
def signLane (t : BitVec 2) (d a : BitVec 7) (neg : LaneCtx → Nat → Bool → Bool) (c : LaneCtx) : LaneOut :=
  let T := Fmt.ofFt t
  let x := c.th.rd a
  LaneOut.reg (c.th.ix d.toNat) (mapEls (ftCount t) T.width c.m.guard (c.th.rd d) (fun i =>
    let b := el T.width x i
    match T.decode b with
    | .nan _ => T.nanBits
    | _ => T.signBit (neg c i (decide (b / 2 ^ (T.width - 1) % 2 = 1))) + b % 2 ^ (T.width - 1)))

/-- A fused product: a x b and then the addend, with the flags of both (R97). -/
def fuse (rdn : Bool) (p : Exact × FFlags) (z : Exact) : Exact × FFlags :=
  let v := exactAdd rdn p.1 z
  (v.1, p.2 ||| v.2)

/-- The conditions of FCMP (R99), from the order of the operands; none when one is a NaN. -/
def floatCond (c : BitVec 3) (o : Option Ordering) : Bool :=
  match c.toNat, o with
  | 0, o => o == some .eq
  | 1, o => o != some .eq
  | 2, o => o == some .lt
  | 3, o => o == some .lt || o == some .eq
  | 4, o => o == some .gt
  | 5, o => o == some .gt || o == some .eq
  | 6, o => o.isNone
  | _, o => o.isSome

/-- The class of an encoding (R99): 0 signalling NaN, 1 quiet NaN, 2 infinity, 3 normal, 4 subnormal, 5 zero. -/
def Fmt.classOf (f : Fmt) (b : Nat) : Nat :=
  match f.decode b with
  | .nan true => 0
  | .nan false => 1
  | .inf _ => 2
  | .fin _ num _ => if num = 0 then 5 else if f.isSubnormal b then 4 else 3

/-- One lane of FMIN and FMAX (R99). -/
def minMaxLane (t : BitVec 2) (d a b : BitVec 7) (isMax : Bool) (c : LaneCtx) : LaneOut :=
  let T := Fmt.ofFt t
  floatLane T d false (fun r i => T.minMax r.ftz isMax (el T.width (c.th.rd a) i) (el T.width (c.th.rd b) i)) c

/-! ### FPA (R96 to R98) -/

/-- FADD: a + b. -/
def execFadd (d a b : BitVec 7) (t : BitVec 2) (s : State) : Host.Outcome State Fault Refusal :=
  simd (.fadd d a b t) s true (fpLane t d a b false (fun rdn x y _ => exactAdd rdn x y))
/-- FSUB: a - b. -/
def execFsub (d a b : BitVec 7) (t : BitVec 2) (s : State) : Host.Outcome State Fault Refusal :=
  simd (.fsub d a b t) s true (fpLane t d a b false (fun rdn x y _ => exactAdd rdn x (exactNeg y)))
/-- FMUL: a x b. -/
def execFmul (d a b : BitVec 7) (t : BitVec 2) (s : State) : Host.Outcome State Fault Refusal :=
  simd (.fmul d a b t) s true (fpLane t d a b false (fun _ x y _ => exactMul x y))
/-- FFMA: a x b + d. -/
def execFfma (d a b : BitVec 7) (t : BitVec 2) (s : State) : Host.Outcome State Fault Refusal :=
  simd (.ffma d a b t) s true (fpLane t d a b true (fun rdn x y z => fuse rdn (exactMul x y) z))
/-- FFMS: a x b - d. -/
def execFfms (d a b : BitVec 7) (t : BitVec 2) (s : State) : Host.Outcome State Fault Refusal :=
  simd (.ffms d a b t) s true (fpLane t d a b true (fun rdn x y z => fuse rdn (exactMul x y) (exactNeg z)))
/-- FNMA: -(a x b) + d. -/
def execFnma (d a b : BitVec 7) (t : BitVec 2) (s : State) : Host.Outcome State Fault Refusal :=
  simd (.fnma d a b t) s true (fpLane t d a b true (fun rdn x y z =>
    fuse rdn (exactNeg (exactMul x y).1, (exactMul x y).2) z))
/-- FABS (R98). -/
def execFabs (d a : BitVec 7) (t : BitVec 2) (s : State) : Host.Outcome State Fault Refusal :=
  simd (.fabs d a t) s false (signLane t d a (fun _ _ _ => false))
/-- FNEG (R98). -/
def execFneg (d a : BitVec 7) (t : BitVec 2) (s : State) : Host.Outcome State Fault Refusal :=
  simd (.fneg d a t) s false (signLane t d a (fun _ _ n => !n))
/-- FCPS: the magnitude of a with the sign of b (R98). -/
def execFcps (d a b : BitVec 7) (t : BitVec 2) (s : State) : Host.Outcome State Fault Refusal :=
  simd (.fcps d a b t) s false (signLane t d a (fun c i _ =>
    decide (el (Fmt.ofFt t).width (c.th.rd b) i / 2 ^ ((Fmt.ofFt t).width - 1) % 2 = 1)))

/-! ### FPC (R99) -/

/-- FCMP. -/
def execFcmp (cc : BitVec 3) (p : BitVec 4) (a b : BitVec 7) (t : BitVec 2) (s : State) : Host.Outcome State Fault Refusal :=
  simd (.fcmp cc p a b t) s false (fun c =>
    let T := Fmt.ofFt t
    predLane (ftCount t) p (fun i =>
      let x := T.read c.m.ftz (el T.width (c.th.rd a) i)
      let y := T.read c.m.ftz (el T.width (c.th.rd b) i)
      (floatCond cc (x.1.cmp y.1), x.2 ||| y.2)) c)
/-- FCLASS. -/
def execFclass (p : BitVec 4) (a m : BitVec 7) (t : BitVec 2) (s : State) : Host.Outcome State Fault Refusal :=
  simd (.fclass p a m t) s false (fun c =>
    let T := Fmt.ofFt t
    predLane (ftCount t) p (fun i =>
      let b := el T.width (c.th.rd a) i
      (m.getLsbD (T.classOf b) && (!m.getLsbD 6 || decide (b / 2 ^ (T.width - 1) % 2 = 1)), 0)) c)
/-- FMIN. -/
def execFmin (d a b : BitVec 7) (t : BitVec 2) (s : State) : Host.Outcome State Fault Refusal :=
  simd (.fmin d a b t) s false (minMaxLane t d a b false)
/-- FMAX. -/
def execFmax (d a b : BitVec 7) (t : BitVec 2) (s : State) : Host.Outcome State Fault Refusal :=
  simd (.fmax d a b t) s false (minMaxLane t d a b true)

end Sys2Proof.Machine
end

