-- ==== Sys2Proof/Machine/Integer.lean ====
section
/-!
DEFINITION. Integer: the majors INT, INT2 and the immediate forms (R85 to R95), with the integer results of R54.
-/

namespace Sys2Proof.Machine

/-! ### Shared operations -/

/-- One lane of an integer instruction on D, A, B at width code w (R86): the exact value of each active sub-element. -/
def intLane (d a b : BitVec 7) (w : BitVec 2) (f : Bool → Nat → Nat → Nat → Nat → Int) (c : LaneCtx) : LaneOut :=
  let S := wCount w.toNat
  let n := wWidth w.toNat
  let x := c.th.rd a
  let y := c.th.rd b
  let z := c.th.rd d
  LaneOut.reg (c.th.ix d.toNat)
    (mapEls S n c.m.guard z (fun i => wrap n (f c.m.sat n (el n x i) (el n y i) (el n z i))))

/-- One lane of an integer instruction on D and A at width code W3. -/
def unaryLane (d a : BitVec 7) (w : BitVec 3) (f : Bool → Nat → Nat → Nat) (c : LaneCtx) : LaneOut :=
  let S := wCount w.toNat
  let n := wWidth w.toNat
  LaneOut.reg (c.th.ix d.toNat) (mapEls S n c.m.guard (c.th.rd d) (fun i => f c.m.sat n (el n (c.th.rd a) i)))

/-- One lane of a 64-bit instruction without a width field (R84). -/
def wordLane (d : BitVec 7) (v : LaneCtx → Word) (c : LaneCtx) : LaneOut :=
  LaneOut.reg (c.th.ix d.toNat) (mapEls 1 64 c.m.guard (c.th.rd d) (fun _ => (v c).toNat))

/-- Clamping under SAT to a type's range (R54, R86). -/
def satTo (sat signed : Bool) (n : Nat) (v : Int) : Int := if sat then clampInt (intRange signed n) v else v

/-- The comparison conditions of R87. -/
def intCond (c : BitVec 3) (n x y : Nat) : Bool :=
  match c.toNat with
  | 0 => decide (x = y)
  | 1 => decide (x ≠ y)
  | 2 => decide (sgn n x < sgn n y)
  | 3 => decide (sgn n x ≤ sgn n y)
  | 4 => decide (sgn n x > sgn n y)
  | 5 => decide (sgn n x ≥ sgn n y)
  | 6 => decide (x < y)
  | _ => decide (x ≥ y)

/-- Left shift, logical right shift and rotates of R86, by a count below the width. -/
def shiftLeft (n k x : Nat) : Nat := x * 2 ^ k % 2 ^ n
/-- Logical right shift. -/
def shiftRight (_n k x : Nat) : Nat := x / 2 ^ k
/-- Arithmetic right shift. -/
def shiftArith (n k x : Nat) : Nat := wrap n (sgn n x / (2 ^ k : Nat))
/-- Rotate left. -/
def rotateLeft (n k x : Nat) : Nat := (x * 2 ^ k + x / 2 ^ (n - k)) % 2 ^ n
/-- Rotate right. -/
def rotateRight (n k x : Nat) : Nat := (x / 2 ^ k + x * 2 ^ (n - k)) % 2 ^ n

/-- One lane of a shift by a register (R86): the count is b mod w. -/
def shiftLane (d a b : BitVec 7) (w : BitVec 2) (f : Nat → Nat → Nat → Nat) : LaneCtx → LaneOut :=
  intLane d a b w (fun _ n x y _ => (f n (y % n) x : Nat))

/-- One lane of IADDC or ISUBB (R90): `f` gives the value and the carry of each sub-element from d, a and the carry in. -/
def carryLane (d a : BitVec 7) (w : BitVec 3) (p : BitVec 4) (f : Nat → Nat → Nat → Nat → Nat × Bool) (c : LaneCtx) : LaneOut :=
  let S := wCount w.toNat
  let n := wWidth w.toNat
  let old := c.th.pred p.toNat
  let z := c.th.rd d
  let r := fun i => f n (el n z i) (el n (c.th.rd a) i) (old.getLsbD (i % 8)).toNat
  { LaneOut.reg (c.th.ix d.toNat) (mapEls S n c.m.guard z (fun i => (r i).1)) with
    preds := [(p.toNat, predEls S c.m.guard old (fun i => (r i).2))] }

/-- Number of one bits among the low n. -/
def popCount (n x : Nat) : Nat := ((List.range n).filter (fun i => x.testBit i)).length

/-- Leading zero bits at width n; n when x is zero. -/
def leadingZeros (n x : Nat) : Nat := if x = 0 then n else n - 1 - Nat.log2 x

/-- Trailing zero bits at width n; n when x is zero. -/
def trailingZeros (n x : Nat) : Nat := ((List.range n).find? (fun i => x.testBit i)).getD n

/-- Bits reversed at width n. -/
def reverseBits (n x : Nat) : Nat := (List.range n).foldl (fun v i => 2 * v + x / 2 ^ i % 2) 0

/-- The field [top - 1 : pos] of a word (R93), sign-extended from its own top bit when signed; 0 when empty. -/
def bitField (signed : Bool) (x : Word) (pos len : Nat) : Word :=
  let n := min (pos + len) 64 - pos
  let v := x.toNat / 2 ^ pos % 2 ^ n
  if n = 0 then 0 else if signed then BitVec.ofInt 64 (sgn n v) else BitVec.ofNat 64 v

/-- BFI (R93): D with [top - 1 : pos] replaced by the low bits of A. -/
def insertField (d a : Word) (pos len : Nat) : Word :=
  let n := min (pos + len) 64 - pos
  BitVec.ofNat 64 (d.toNat - d.toNat / 2 ^ pos % 2 ^ n * 2 ^ pos + a.toNat % 2 ^ n * 2 ^ pos)

/-- Position and length in a register (R93). -/
def fieldPos (b : Word) : Nat := b.toNat % 64
/-- The length field of a register (R93). -/
def fieldLen (b : Word) : Nat := b.toNat / 256 % 64

/-- PRMB (R93): byte j is byte sel[4j+3:4j] of the bytes of A then B. -/
def permuteBytes (d a b : Word) : Word :=
  mapEls 8 8 0xFF 0 (fun j =>
    let k := el 4 d j
    if k < 8 then el 8 a k else el 8 b (k - 8))

/-- WMACL and WMACH (R91): half of the exact product, plus D, plus the carry. -/
def wideMacLane (d a b : BitVec 7) (p : BitVec 3) (high : Bool) (c : LaneCtx) : LaneOut :=
  let pn := 8 + p.toNat
  let old := c.th.pred pn
  let prod := (c.th.rd a).toNat * (c.th.rd b).toNat
  let h := if high then prod / 2 ^ 64 else prod % 2 ^ 64
  let t := h + (c.th.rd d).toNat + (old.getLsbD 0).toNat
  { LaneOut.reg (c.th.ix d.toNat) (mapEls 1 64 c.m.guard (c.th.rd d) (fun _ => t)) with
    preds := [(pn, predEls 1 c.m.guard old (fun _ => decide (2 ^ 64 ≤ t)))] }

/-- A predicate operation on all 8 bits, bit by bit under the guard (R94). -/
def predOpLane (d : BitVec 4) (v : LaneCtx → Byte) (c : LaneCtx) : LaneOut :=
  LaneOut.pred d.toNat ((v c &&& c.m.guard) ||| (c.th.pred d.toNat &&& ~~~ c.m.guard))

/-! ### INT (R85 to R87) -/

/-- IADD: a + b. -/
def execIadd (d a b : BitVec 7) (w : BitVec 2) (s : State) : Host.Outcome State Fault Refusal :=
  simd (.iadd d a b w) s false (intLane d a b w (fun sat n x y _ => satTo sat true n (sgn n x + sgn n y)))
/-- ISUB: a - b. -/
def execIsub (d a b : BitVec 7) (w : BitVec 2) (s : State) : Host.Outcome State Fault Refusal :=
  simd (.isub d a b w) s false (intLane d a b w (fun sat n x y _ => satTo sat true n (sgn n x - sgn n y)))
/-- IMUL: low bits of a x b. -/
def execImul (d a b : BitVec 7) (w : BitVec 2) (s : State) : Host.Outcome State Fault Refusal :=
  simd (.imul d a b w) s false (intLane d a b w (fun sat n x y _ => satTo sat true n (sgn n x * sgn n y)))
/-- IMULH: high bits of the signed product. -/
def execImulh (d a b : BitVec 7) (w : BitVec 2) (s : State) : Host.Outcome State Fault Refusal :=
  simd (.imulh d a b w) s false (intLane d a b w (fun _ n x y _ => sgn n x * sgn n y / (2 ^ n : Nat)))
/-- IMULHN: high bits of the natural product. -/
def execImulhn (d a b : BitVec 7) (w : BitVec 2) (s : State) : Host.Outcome State Fault Refusal :=
  simd (.imulhn d a b w) s false (intLane d a b w (fun _ n x y _ => (x * y / 2 ^ n : Nat)))
/-- IMAD: a x b + d, low bits. -/
def execImad (d a b : BitVec 7) (w : BitVec 2) (s : State) : Host.Outcome State Fault Refusal :=
  simd (.imad d a b w) s false (intLane d a b w (fun _ _ x y z => (x * y + z : Nat)))
/-- IMIN: signed minimum. -/
def execImin (d a b : BitVec 7) (w : BitVec 2) (s : State) : Host.Outcome State Fault Refusal :=
  simd (.imin d a b w) s false (intLane d a b w (fun _ n x y _ => min (sgn n x) (sgn n y)))
/-- IMAX: signed maximum. -/
def execImax (d a b : BitVec 7) (w : BitVec 2) (s : State) : Host.Outcome State Fault Refusal :=
  simd (.imax d a b w) s false (intLane d a b w (fun _ n x y _ => max (sgn n x) (sgn n y)))
/-- IMINN: natural minimum. -/
def execIminn (d a b : BitVec 7) (w : BitVec 2) (s : State) : Host.Outcome State Fault Refusal :=
  simd (.iminn d a b w) s false (intLane d a b w (fun _ _ x y _ => (min x y : Nat)))
/-- IMAXN: natural maximum. -/
def execImaxn (d a b : BitVec 7) (w : BitVec 2) (s : State) : Host.Outcome State Fault Refusal :=
  simd (.imaxn d a b w) s false (intLane d a b w (fun _ _ x y _ => (max x y : Nat)))
/-- SHL. -/
def execShl (d a b : BitVec 7) (w : BitVec 2) (s : State) : Host.Outcome State Fault Refusal :=
  simd (.shl d a b w) s false (shiftLane d a b w shiftLeft)
/-- SHR. -/
def execShr (d a b : BitVec 7) (w : BitVec 2) (s : State) : Host.Outcome State Fault Refusal :=
  simd (.shr d a b w) s false (shiftLane d a b w shiftRight)
/-- SAR. -/
def execSar (d a b : BitVec 7) (w : BitVec 2) (s : State) : Host.Outcome State Fault Refusal :=
  simd (.sar d a b w) s false (shiftLane d a b w shiftArith)
/-- ROL. -/
def execRol (d a b : BitVec 7) (w : BitVec 2) (s : State) : Host.Outcome State Fault Refusal :=
  simd (.rol d a b w) s false (shiftLane d a b w rotateLeft)
/-- ROR. -/
def execRor (d a b : BitVec 7) (w : BitVec 2) (s : State) : Host.Outcome State Fault Refusal :=
  simd (.ror d a b w) s false (shiftLane d a b w rotateRight)
/-- ICMP (R87). -/
def execIcmp (cc : BitVec 3) (p : BitVec 4) (a b : BitVec 7) (w : BitVec 2) (s : State) : Host.Outcome State Fault Refusal :=
  simd (.icmp cc p a b w) s false (fun c => predLane (wCount w.toNat) p (fun i =>
    (intCond cc (wWidth w.toNat) (el (wWidth w.toNat) (c.th.rd a) i) (el (wWidth w.toNat) (c.th.rd b) i), 0)) c)

/-! ### INT2 (R89 to R94) -/

/-- IADDC (R90). -/
def execIaddc (d a : BitVec 7) (w : BitVec 3) (p : BitVec 4) (s : State) : Host.Outcome State Fault Refusal :=
  simd (.iaddc d a w p) s false (carryLane d a w p (fun n z x k => ((z + x + k) % 2 ^ n, decide (2 ^ n ≤ z + x + k))))
/-- ISUBB (R90). -/
def execIsubb (d a : BitVec 7) (w : BitVec 3) (p : BitVec 4) (s : State) : Host.Outcome State Fault Refusal :=
  simd (.isubb d a w p) s false (carryLane d a w p (fun n z x k => (wrap n ((z : Int) - x - k), decide (z < x + k))))
/-- INEG (R92). -/
def execIneg (d a : BitVec 7) (nat : BitVec 1) (w : BitVec 3) (s : State) : Host.Outcome State Fault Refusal :=
  simd (.ineg d a nat w) s false (unaryLane d a w (fun sat n x =>
    if nat == 1#1 then wrap n (satTo sat false n (-(x : Int))) else wrap n (satTo sat true n (-(sgn n x)))))
/-- IABS (R92). -/
def execIabs (d a : BitVec 7) (nat : BitVec 1) (w : BitVec 3) (s : State) : Host.Outcome State Fault Refusal :=
  simd (.iabs d a nat w) s false (unaryLane d a w (fun sat n x =>
    if nat == 1#1 then x else wrap n (satTo sat true n (sgn n x).natAbs)))
/-- POPC (R92). -/
def execPopc (d a : BitVec 7) (w : BitVec 3) (s : State) : Host.Outcome State Fault Refusal :=
  simd (.popc d a w) s false (unaryLane d a w (fun _ n x => popCount n x))
/-- CLZ (R92). -/
def execClz (d a : BitVec 7) (w : BitVec 3) (s : State) : Host.Outcome State Fault Refusal :=
  simd (.clz d a w) s false (unaryLane d a w (fun _ n x => leadingZeros n x))
/-- CTZ (R92). -/
def execCtz (d a : BitVec 7) (w : BitVec 3) (s : State) : Host.Outcome State Fault Refusal :=
  simd (.ctz d a w) s false (unaryLane d a w (fun _ n x => trailingZeros n x))
/-- BREV (R92). -/
def execBrev (d a : BitVec 7) (w : BitVec 3) (s : State) : Host.Outcome State Fault Refusal :=
  simd (.brev d a w) s false (unaryLane d a w (fun _ n x => reverseBits n x))
/-- AND (R93). -/
def execAnd (d a b : BitVec 7) (s : State) : Host.Outcome State Fault Refusal :=
  simd (.and d a b) s false (wordLane d (fun c => c.th.rd a &&& c.th.rd b))
/-- OR (R93). -/
def execOr (d a b : BitVec 7) (s : State) : Host.Outcome State Fault Refusal :=
  simd (.or d a b) s false (wordLane d (fun c => c.th.rd a ||| c.th.rd b))
/-- XOR (R93). -/
def execXor (d a b : BitVec 7) (s : State) : Host.Outcome State Fault Refusal :=
  simd (.xor d a b) s false (wordLane d (fun c => c.th.rd a ^^^ c.th.rd b))
/-- ANDN: A AND NOT B (R93). -/
def execAndn (d a b : BitVec 7) (s : State) : Host.Outcome State Fault Refusal :=
  simd (.andn d a b) s false (wordLane d (fun c => c.th.rd a &&& ~~~ c.th.rd b))
/-- NOT (R93). -/
def execNot (d a : BitVec 7) (s : State) : Host.Outcome State Fault Refusal :=
  simd (.not d a) s false (wordLane d (fun c => ~~~ c.th.rd a))
/-- MOV (R93). -/
def execMov (d a : BitVec 7) (s : State) : Host.Outcome State Fault Refusal :=
  simd (.mov d a) s false (wordLane d (fun c => c.th.rd a))
/-- SEL (R93): at S = 16 predicate bit j governs sub-elements 2j and 2j + 1 (R18). -/
def execSel (d a : BitVec 7) (w : BitVec 3) (p : BitVec 4) (s : State) : Host.Outcome State Fault Refusal :=
  simd (.sel d a w p) s false (fun c =>
    let S := wCount w.toNat
    let n := wWidth w.toNat
    LaneOut.reg (c.th.ix d.toNat) (mapEls S n (c.m.guard) (c.th.rd d) (fun i =>
      if onEl (c.th.pred p.toNat) S i then el n (c.th.rd a) i else el n (c.th.rd d) i)))
/-- PRMB (R93). -/
def execPrmb (d a b : BitVec 7) (s : State) : Host.Outcome State Fault Refusal :=
  simd (.prmb d a b) s false (wordLane d (fun c => permuteBytes (c.th.rd d) (c.th.rd a) (c.th.rd b)))
/-- BFX natural (R93). -/
def execBfxNatural (d a b : BitVec 7) (s : State) : Host.Outcome State Fault Refusal :=
  simd (.bfxNatural d a b) s false (wordLane d (fun c => bitField false (c.th.rd a) (fieldPos (c.th.rd b)) (fieldLen (c.th.rd b))))
/-- BFX signed (R93). -/
def execBfxSigned (d a b : BitVec 7) (s : State) : Host.Outcome State Fault Refusal :=
  simd (.bfxSigned d a b) s false (wordLane d (fun c => bitField true (c.th.rd a) (fieldPos (c.th.rd b)) (fieldLen (c.th.rd b))))
/-- BFI (R93). -/
def execBfi (d a b : BitVec 7) (s : State) : Host.Outcome State Fault Refusal :=
  simd (.bfi d a b) s false (wordLane d (fun c => insertField (c.th.rd d) (c.th.rd a) (fieldPos (c.th.rd b)) (fieldLen (c.th.rd b))))
/-- LEA (R93). -/
def execLea (d a b : BitVec 7) (k : BitVec 2) (s : State) : Host.Outcome State Fault Refusal :=
  simd (.lea d a b k) s false (wordLane d (fun c => c.th.rd a + c.th.rd b <<< k.toNat))
/-- PAND (R94). -/
def execPand (d a b : BitVec 4) (s : State) : Host.Outcome State Fault Refusal :=
  simd (.pand d a b) s false (predOpLane d (fun c => c.th.pred a.toNat &&& c.th.pred b.toNat))
/-- POR (R94). -/
def execPor (d a b : BitVec 4) (s : State) : Host.Outcome State Fault Refusal :=
  simd (.por d a b) s false (predOpLane d (fun c => c.th.pred a.toNat ||| c.th.pred b.toNat))
/-- PXOR (R94). -/
def execPxor (d a b : BitVec 4) (s : State) : Host.Outcome State Fault Refusal :=
  simd (.pxor d a b) s false (predOpLane d (fun c => c.th.pred a.toNat ^^^ c.th.pred b.toNat))
/-- PNOT (R94). -/
def execPnot (d a : BitVec 4) (s : State) : Host.Outcome State Fault Refusal :=
  simd (.pnot d a) s false (predOpLane d (fun c => ~~~ c.th.pred a.toNat))
/-- P2G (R94). -/
def execP2g (d : BitVec 7) (a : BitVec 4) (s : State) : Host.Outcome State Fault Refusal :=
  simd (.p2g d a) s false (wordLane d (fun c => (c.th.pred a.toNat).setWidth 64))
/-- G2P (R94). -/
def execG2p (d : BitVec 4) (a : BitVec 7) (s : State) : Host.Outcome State Fault Refusal :=
  simd (.g2p d a) s false (predOpLane d (fun c => (c.th.rd a).setWidth 8))
/-- WMACL (R91). -/
def execWmacl (d a b : BitVec 7) (p : BitVec 3) (s : State) : Host.Outcome State Fault Refusal :=
  simd (.wmacl d a b p) s false (wideMacLane d a b p false)
/-- WMACH (R91). -/
def execWmach (d a b : BitVec 7) (p : BitVec 3) (s : State) : Host.Outcome State Fault Refusal :=
  simd (.wmach d a b p) s false (wideMacLane d a b p true)
/-- IADD, natural (R93). -/
def execIaddNatural (d a b : BitVec 7) (w : BitVec 2) (s : State) : Host.Outcome State Fault Refusal :=
  simd (.iaddNatural d a b w) s false (intLane d a b w (fun sat n x y _ => satTo sat false n (x + y : Nat)))
/-- ISUB, natural (R93). -/
def execIsubNatural (d a b : BitVec 7) (w : BitVec 2) (s : State) : Host.Outcome State Fault Refusal :=
  simd (.isubNatural d a b w) s false (intLane d a b w (fun sat n x y _ => satTo sat false n ((x : Int) - y)))
/-- IMUL, natural (R93). -/
def execImulNatural (d a b : BitVec 7) (w : BitVec 2) (s : State) : Host.Outcome State Fault Refusal :=
  simd (.imulNatural d a b w) s false (intLane d a b w (fun sat n x y _ => satTo sat false n (x * y : Nat)))

/-! ### Immediate forms (R88, R95) -/

/-- ADDI (R95). -/
def execAddi (d a : BitVec 7) (i : BitVec 13) (s : State) : Host.Outcome State Fault Refusal :=
  simd (.addi d a i) s false (wordLane d (fun c =>
    BitVec.ofInt 64 (satTo c.m.sat true 64 ((c.th.rd a).toInt + i.toInt))))
/-- AND with an immediate (R95). -/
def execAndImmediate (d a : BitVec 7) (i : BitVec 11) (s : State) : Host.Outcome State Fault Refusal :=
  simd (.andImmediate d a i) s false (wordLane d (fun c => c.th.rd a &&& i.setWidth 64))
/-- OR with an immediate (R95). -/
def execOrImmediate (d a : BitVec 7) (i : BitVec 11) (s : State) : Host.Outcome State Fault Refusal :=
  simd (.orImmediate d a i) s false (wordLane d (fun c => c.th.rd a ||| i.setWidth 64))
/-- XOR with an immediate (R95). -/
def execXorImmediate (d a : BitVec 7) (i : BitVec 11) (s : State) : Host.Outcome State Fault Refusal :=
  simd (.xorImmediate d a i) s false (wordLane d (fun c => c.th.rd a ^^^ i.setWidth 64))
/-- ANDN with an immediate (R95). -/
def execAndnImmediate (d a : BitVec 7) (i : BitVec 11) (s : State) : Host.Outcome State Fault Refusal :=
  simd (.andnImmediate d a i) s false (wordLane d (fun c => c.th.rd a &&& ~~~ (i.setWidth 64)))
/-- A 64-bit shift by an immediate (R95). -/
def shiftWord (f : Nat → Nat → Nat → Nat) (k : BitVec 6) (x : Word) : Word := BitVec.ofNat 64 (f 64 k.toNat x.toNat)
/-- SHL by an immediate (R95). -/
def execShlImmediate (d a : BitVec 7) (k : BitVec 6) (s : State) : Host.Outcome State Fault Refusal :=
  simd (.shlImmediate d a k) s false (wordLane d (fun c => shiftWord shiftLeft k (c.th.rd a)))
/-- SHR by an immediate (R95). -/
def execShrImmediate (d a : BitVec 7) (k : BitVec 6) (s : State) : Host.Outcome State Fault Refusal :=
  simd (.shrImmediate d a k) s false (wordLane d (fun c => shiftWord shiftRight k (c.th.rd a)))
/-- SAR by an immediate (R95). -/
def execSarImmediate (d a : BitVec 7) (k : BitVec 6) (s : State) : Host.Outcome State Fault Refusal :=
  simd (.sarImmediate d a k) s false (wordLane d (fun c => shiftWord shiftArith k (c.th.rd a)))
/-- ROL by an immediate (R95). -/
def execRolImmediate (d a : BitVec 7) (k : BitVec 6) (s : State) : Host.Outcome State Fault Refusal :=
  simd (.rolImmediate d a k) s false (wordLane d (fun c => shiftWord rotateLeft k (c.th.rd a)))
/-- ROR by an immediate (R95). -/
def execRorImmediate (d a : BitVec 7) (k : BitVec 6) (s : State) : Host.Outcome State Fault Refusal :=
  simd (.rorImmediate d a k) s false (wordLane d (fun c => shiftWord rotateRight k (c.th.rd a)))
/-- BFX natural with immediates (R95). -/
def execBfxImmediateNatural (d a : BitVec 7) (l : BitVec 4) (p : BitVec 6) (s : State) : Host.Outcome State Fault Refusal :=
  simd (.bfxImmediateNatural d a l p) s false (wordLane d (fun c => bitField false (c.th.rd a) p.toNat (l.toNat + 1)))
/-- BFX signed with immediates (R95). -/
def execBfxImmediateSigned (d a : BitVec 7) (l : BitVec 4) (p : BitVec 6) (s : State) : Host.Outcome State Fault Refusal :=
  simd (.bfxImmediateSigned d a l p) s false (wordLane d (fun c => bitField true (c.th.rd a) p.toNat (l.toNat + 1)))
/-- CMPI (R88). -/
def execCmpi (cc : BitVec 3) (p : BitVec 4) (a : BitVec 7) (i : BitVec 13) (s : State) : Host.Outcome State Fault Refusal :=
  simd (.cmpi cc p a i) s false (fun c => predLane 1 p (fun _ =>
    (intCond cc 64 (c.th.rd a).toNat (i.signExtend 64).toNat, 0)) c)
/-- LUI (R95): the immediate times 2^12, sign-extended. -/
def execLui (d : BitVec 7) (i : BitVec 20) (s : State) : Host.Outcome State Fault Refusal :=
  simd (.lui d i) s false (wordLane d (fun _ => (i ++ 0#12).signExtend 64))

end Sys2Proof.Machine
end

