-- ==== Sys2Proof/Machine/CrossLane.lean ====
section
/-!
DEFINITION. CrossLane: the major XL (R109 to R115), with the tree of R48.
-/

namespace Sys2Proof.Machine

/-! ### SHFL, BCAST, VOTE, MATCH -/

/-- The lane of an issue set, when it is in it. -/
def laneOf (ls : List LaneCtx) (lane : Nat) : Option LaneCtx := ls.find? (·.lane = lane)

/-- SHFL (R111): the source element of each element, or the lane's own value. -/
def shflValue (ls : List LaneCtx) (d a : BitVec 7) (m : BitVec 2) (S n : Nat) (c : LaneCtx) (i : Nat) : Nat :=
  let e := c.lane * S + i
  let x := el n (c.th.rd d) i
  let src : Int := match m.toNat with
    | 0 => x
    | 1 => (e : Int) - x
    | 2 => e + x
    | _ => (e ^^^ x : Nat)
  let own := el n (c.th.rd a) i
  if 0 ≤ src && src < 32 * S then
    match laneOf ls (src.toNat / S) with
    | some k => el n (k.th.rd a) (src.toNat % S)
    | none => own
  else own

/-- SHFL. -/
def execShfl (d a : BitVec 7) (m : BitVec 2) (w : BitVec 3) (l : BitVec 4) (s : State) : Host.Outcome State Fault Refusal :=
  crossLane (.shfl d a m w l) s (fun ls => ls.map (fun c =>
    LaneOut.reg (c.th.ix d.toNat) (mapEls (wCount w.toNat) (wWidth w.toNat) c.m.guard (c.th.rd d)
      (shflValue ls d a m (wCount w.toNat) (wWidth w.toNat) c))))

/-- A result written in the lanes whose guard bit 0 is set. -/
def guardedOut (o : LaneCtx → LaneOut) (c : LaneCtx) : LaneOut := if onEl c.m.guard 1 0 then o c else LaneOut.none

/-- BCAST (R112). -/
def execBcast (d a : BitVec 7) (src : BitVec 5) (l : BitVec 4) (s : State) : Host.Outcome State Fault Refusal :=
  crossLane (.bcast d a src l) s (fun ls => ls.map (guardedOut (fun c =>
    match laneOf ls src.toNat with
    | some k => LaneOut.reg (c.th.ix d.toNat) (k.th.rd a)
    | none => LaneOut.none)))

/-- The bits that the participants of a vote bring (R113): those whose guard bit 0 is set. -/
def voteBits (a : BitVec 4) (ls : List LaneCtx) : List (Nat × Bool) :=
  (ls.filter (fun c => onEl c.m.guard 1 0)).map (fun c => (c.lane, (c.th.pred a.toNat).getLsbD 0))

/-- VOTE any, all, eq (R113). -/
def execVote (d a : BitVec 4) (k : BitVec 2) (l : BitVec 4) (s : State) : Host.Outcome State Fault Refusal :=
  crossLane (.vote d a k l) s (fun ls =>
    let bs := (voteBits a ls).map (·.2)
    let r := match k.toNat with
      | 0 => bs.any id
      | 1 => bs.all id
      | _ => bs.all id || !bs.any id
    ls.map (guardedOut (fun _ => LaneOut.pred d.toNat (if r then 0xFF else 0))))

/-- VOTE ballot (R113). -/
def execVoteBallot (d : BitVec 7) (a : BitVec 4) (l : BitVec 4) (s : State) : Host.Outcome State Fault Refusal :=
  crossLane (.voteBallot d a l) s (fun ls =>
    let m := laneMask (((voteBits a ls).filter (·.2)).map (·.1))
    ls.map (guardedOut (fun c => LaneOut.reg (c.th.ix d.toNat) (m.setWidth 64))))

/-- MATCH (R114). -/
def execMatchLanes (d a : BitVec 7) (l : BitVec 4) (s : State) : Host.Outcome State Fault Refusal :=
  crossLane (.matchLanes d a l) s (fun ls => ls.map (guardedOut (fun c =>
    LaneOut.reg (c.th.ix d.toNat)
      ((laneMask ((ls.filter (fun k => k.th.rd a == c.th.rd a)).map (·.lane))).setWidth 64))))

/-! ### REDUCE and SCAN (R48, R115) -/

/-- The largest power of two less than n, for n at least 2. -/
def powBelow (n : Nat) : Nat := 2 ^ Nat.log2 (n - 1)

/-- The tree of R48 over a list; `fuel` is at least its length, and `z` stands for an empty list. -/
def treeFold {α : Type} (op : α → α → α) (z : α) : Nat → List α → α
  | 0, _ => z
  | _, [] => z
  | _, [x] => x
  | fuel + 1, xs =>
    op (treeFold op z fuel (xs.take (powBelow xs.length))) (treeFold op z fuel (xs.drop (powBelow xs.length)))

/-- A combined value: its bits and the flags of the leaves and nodes that formed it. -/
abbrev TreeVal := Nat × FFlags

/-- What REDUCE and SCAN combine by: leaf, node and identity. -/
structure Combine where
  leaf : Nat → TreeVal
  node : TreeVal → TreeVal → TreeVal
  ident : TreeVal
  bad : Nat → FFlags

/-- The integer operations and identities (R48, R109) at width n. -/
def intCombine (op n : Nat) : Combine :=
  let pick := fun (first : Bool) (x y : Nat) => if first then x else y
  let f : Nat → Nat → Nat := match op with
    | 0 => fun x y => (x + y) % 2 ^ n
    | 1 => fun x y => pick (decide (sgn n x ≤ sgn n y)) x y
    | 2 => fun x y => pick (decide (sgn n y ≤ sgn n x)) x y
    | 3 => min
    | 4 => max
    | 5 => fun x y => x &&& y
    | 6 => fun x y => x ||| y
    | _ => fun x y => x ^^^ y
  let z : Nat := match op with
    | 1 => 2 ^ (n - 1) - 1
    | 2 => 2 ^ (n - 1)
    | 3 | 5 => 2 ^ n - 1
    | _ => 0
  { leaf := fun x => (x, 0), node := fun x y => (f x.1 y.1, 0), ident := (z, 0), bad := fun _ => 0 }

/-- The floating-point operations and identities (R48, R99): RNE nodes under one FTZ setting. -/
def floatCombine (op : Nat) (T : Fmt) (ftz : Bool) : Combine :=
  let r : Rounding := { rm := 0, sat := false, ftz := ftz, rnd := 0, srcUnit := none }
  { leaf := fun x =>
      let v := T.read ftz x
      ((T.round r v.1.toExact).1, v.2)
    node := fun x y =>
      let v : Nat × FFlags := if op = 8 then
          let p := T.read ftz x.1
          let q := T.read ftz y.1
          let e := exactAdd false p.1.toExact q.1.toExact
          let b := T.round r e.1
          (b.1, e.2 ||| b.2)
        else T.minMax ftz (op == 10) x.1 y.1
      (v.1, x.2 ||| y.2 ||| v.2)
    ident := (if op = 8 then 0 else T.infBits (op == 10), 0)
    bad := T.nfFlag }

/-- An element of the list: lane, sub-element, bits, and whether it starts a segment. -/
structure ListElem where
  lane : Nat
  i : Nat
  val : Nat
  head : Bool
  deriving DecidableEq, Repr

/-- The active elements in ascending flat index, with the segment heads in D when SEG is set. -/
def listElems (d a : BitVec 7) (seg : Bool) (S n : Nat) (ls : List LaneCtx) : List ListElem :=
  ls.flatMap (fun c => (activeEls S c.m.guard).map (fun i =>
    { lane := c.lane, i := i, val := el n (c.th.rd a) i, head := seg && el n (c.th.rd d) i != 0 }))

/-- The list cut into segments: an element whose head is set starts one. -/
def segments : List ListElem → List (List ListElem)
  | [] => []
  | e :: r =>
    match segments r with
    | [] => [[e]]
    | g :: gs => if (g.head?.map (·.head)).getD false then [e] :: g :: gs else (e :: g) :: gs

/-- Which prefix of its segment an element's result combines. -/
inductive ListForm where
  | whole | upTo | before
  deriving DecidableEq, Repr

/-- The result of each element of a segment. -/
def segmentResults (form : ListForm) (k : Combine) (g : List ListElem) : List (Nat × Nat × TreeVal) :=
  let xs := g.map (fun e => k.leaf e.val)
  g.zipIdx.map (fun e =>
    let ys := match form with
      | .whole => xs
      | .upTo => xs.take (e.2 + 1)
      | .before => xs.take e.2
    (e.1.lane, e.1.i, if ys.isEmpty then k.ident else treeFold k.node k.ident ys.length ys))

/-- REDUCE and SCAN over the lanes (R115). -/
def reduceLanes (form : ListForm) (d a : BitVec 7) (seg : BitVec 1) (o : BitVec 4) (w : BitVec 2) (ls : List LaneCtx) : List LaneOut :=
  let op := o.toNat
  let T := Fmt.ofFt w
  let isFloat := decide (8 ≤ op)
  let S := if isFloat then ftCount w else wCount w.toNat
  let n := if isFloat then T.width else wWidth w.toNat
  let ftz := ((ls.find? (fun c => !(activeEls S c.m.guard).isEmpty)).map (·.m.ftz)).getD false
  let k := if isFloat then floatCombine op T ftz else intCombine op n
  let rs := (segments (listElems d a (seg == 1#1) S n ls)).flatMap (segmentResults form k)
  ls.map (fun c =>
    let own := rs.filter (fun r => r.1 = c.lane)
    { LaneOut.reg (c.th.ix d.toNat) (own.foldl (fun x r => setEl n x r.2.1 r.2.2.1) (c.th.rd d)) with
      flags := own.foldl (fun fl r => fl ||| r.2.2.2 ||| k.bad r.2.2.1) 0 })

/-- REDUCE. -/
def execReduce (d a : BitVec 7) (seg : BitVec 1) (o : BitVec 4) (w : BitVec 2) (l : BitVec 4) (s : State) :
    Host.Outcome State Fault Refusal :=
  crossLane (.reduce d a seg o w l) s (reduceLanes .whole d a seg o w)
/-- SCAN, inclusive. -/
def execScanInclusive (d a : BitVec 7) (seg : BitVec 1) (o : BitVec 4) (w : BitVec 2) (l : BitVec 4) (s : State) :
    Host.Outcome State Fault Refusal :=
  crossLane (.scanInclusive d a seg o w l) s (reduceLanes .upTo d a seg o w)
/-- SCAN, exclusive. -/
def execScanExclusive (d a : BitVec 7) (seg : BitVec 1) (o : BitVec 4) (w : BitVec 2) (l : BitVec 4) (s : State) :
    Host.Outcome State Fault Refusal :=
  crossLane (.scanExclusive d a seg o w l) s (reduceLanes .before d a seg o w)

end Sys2Proof.Machine
end

