-- ==== Sys2Proof/Machine/Registers.lean ====
section
/-!
DEFINITION. Registers: the device register space (R6, R414): what each object of it reads as, what a write to each does, and the steps
LAUNCH_QUEUE_ENTRY_WRITE, UNFREEZE, HOD_QUEUE_ENTRY_WRITE and GCL_WINDOW_WRITE. An object is named by its first offset; a read or a
write of fewer bytes acts on the object's bytes.
-/

namespace Sys2Proof.Machine

/-! ### Owner checks (R350) -/

/-- Whether a session may name a context in a register: it owns it, and it is live. -/
def State.mayName (s : State) (session ctx : Nat) : Bool := s.owns session ctx && s.live ctx

/-- An ignored write that names what the session does not own raises event 12 with the register's offset. -/
def State.notOwner (s : State) (session off : Nat) : State := s.eventTo session 12 0 [off]

/-- Whether a write to an entry is refused for its owner: the context it names, or the one an enabled entry serves. -/
def State.ownerBad (s : State) (session : Nat) (en : Bool) (old new : Nat) : Bool :=
  (new != 0 && !s.mayName session new) || (en && !s.owns session old)

/-! ### Launch queues (R299, R300) -/

/-- Offset of a launch queue's entry. -/
def launchQAt (q : Nat) : Nat := 0x20100 + 32 * q

/-- What a launch queue's entry reads as. -/
def LaunchQ.value (e : LaunchQ) : Nat := e.en.toNat + e.frozen.toNat * 2 + e.logn % 64 * 2 ^ 2 + e.ctx % 256 * 2 ^ 8 + e.base % 2 ^ 48 * 2 ^ 64

/-- A write to a launch queue's entry (R299, R300). -/
def State.writeLaunchQ (s : State) (session q v : Nat) : State :=
  let e := Table.get LaunchQ.reset s.sched.queues q
  let en := v.testBit 0
  let logn := bitsOf v 2 6
  let ctx := bitsOf v 8 8
  let base := bitsOf v 72 40 * 256
  let n : LaunchQ := { en := en, frozen := e.frozen && !v.testBit 128, logn := logn, ctx := ctx, base := base }
  if 16 ≤ q then s
  else if s.ownerBad session e.en e.ctx ctx || (en && !s.mayName session ctx) then s.notOwner session (launchQAt q)
  else if e.en && (logn != e.logn || ctx != e.ctx || base != e.base) then s
  else if en && !e.en && (decide (logn < 6) || decide (16 < logn)) then s
  else { s with sched := { s.sched with queues := Table.put LaunchQ.reset s.sched.queues q n } }

/-- LAUNCH_QUEUE_ENTRY_WRITE. -/
def execLaunchQueueEntryWrite (session q : Nat) (val : BitVec 256) (s : State) : Host.Outcome State Fault Refusal :=
  .next (if s.schedUp then s.writeLaunchQ session q val.toNat else s)

/-- UNFREEZE: acceptance resumes at READ; no launch is run again (R300). -/
def execUnfreeze (session q : Nat) (s : State) : Host.Outcome State Fault Refusal :=
  let e := Table.get LaunchQ.reset s.sched.queues q
  if !s.schedUp then .next s
  else if e.ctx != 0 && !s.owns session e.ctx then .next (s.notOwner session (launchQAt q))
  else .next { s with sched := { s.sched with queues := Table.put LaunchQ.reset s.sched.queues q { e with frozen := false } } }

/-! ### Hod queue tables (R217) -/

/-- Offset of a hod's register block. -/
def hodAt (core : Nat) : Nat := 0x1000000 + core * 0x10000

/-- What an entry of a hod's queue table reads as; entry 0 is queue 0's. -/
def QEntry.value (e : QEntry) : Nat :=
  e.en.toNat + e.logn % 64 * 2 ^ 2 + e.ctx % 256 * 2 ^ 8 + e.trec % 64 * 2 ^ 16 + e.tvalid.toNat * 2 ^ 22 + e.base % 2 ^ 48 * 2 ^ 64

/-- A write to an entry of a hod's queue table (R217). -/
def State.writeHodQ (s : State) (core q v : Nat) : State :=
  let e := (s.core core).hod.entry q
  let n : QEntry := { en := v.testBit 0, logn := bitsOf v 2 6, ctx := bitsOf v 8 8, trec := bitsOf v 16 6, tvalid := v.testBit 22,
                      base := bitsOf v 70 42 * 64 }
  if q = 0 || 8 ≤ q || Config.cores ≤ core then s
  else if e.en && ({ n with en := true } != e) then s
  else if n.en && !e.en && (decide (n.logn < 6) || decide (16 < n.logn) || !s.live n.ctx) then s
  else s.modHod core (fun h => { h with queues := Table.put QEntry.reset h.queues q n, ready := if n.en then h.ready else h.ready.erase q })

/-- HOD_QUEUE_ENTRY_WRITE: the scheduler core attaches or detaches a ring on a context's behalf. -/
def execHodQueueEntryWrite (core q : Nat) (val : BitVec 128) (s : State) : Host.Outcome State Fault Refusal :=
  .next (if s.schedUp then s.writeHodQ core q val.toNat else s)

/-! ### Memory windows (R351) -/

/-- Offset of a window's descriptor. -/
def windowAt (w : Nat) : Nat := 0x30000 + 16 * w

/-- What a window's descriptor reads as. -/
def Window.value (w : Window) : Nat := w.en.toNat + w.ctx % 256 * 2 ^ 8 + w.base % 2 ^ 32 * 2 ^ 64

/-- The window that a descriptor describes. -/
def Window.ofValue (v : Nat) : Window := { en := v.testBit 0, ctx := bitsOf v 8 8, base := bitsOf v 64 32 }

/-- Sets a window. -/
def State.setWindow (s : State) (w : Nat) (x : Window) : State := { s with host := { s.host with windows := Table.put Window.reset s.host.windows w x } }

/-- A write to a window's descriptor: it must name a live context that the session owns, also to close the window. -/
def State.writeWindow (s : State) (session w v : Nat) : State :=
  if 64 ≤ w then s
  else if !s.mayName session (Window.ofValue v).ctx then s.notOwner session (windowAt w)
  else s.setWindow w (Window.ofValue v)

/-- GCL_WINDOW_WRITE. -/
def execGclWindowWrite (session win : Nat) (val : BitVec 128) (s : State) : Host.Outcome State Fault Refusal :=
  .next (s.writeWindow session win val.toNat)

/-! ### Send queues, receive queues and peer entries (R355, R356, R358) -/

/-- What a send queue's entry reads as. -/
def SendQ.value (e : SendQ) : Nat :=
  e.en.toNat + e.rod.toNat * 2 + e.ctx % 256 * 2 ^ 8 + e.spray % 2 ^ 16 * 2 ^ 16 + e.job % 2 ^ 24 * 2 ^ 32 + e.rq % 256 * 2 ^ 56 +
    e.retry % 2 ^ 32 * 2 ^ 64

/-- A write to a send queue's entry; a RETRY out of its range keeps the old one. -/
def State.writeSendQ (s : State) (session q v : Nat) : State :=
  let e := Table.get SendQ.reset s.host.sendQs q
  let retry := bitsOf v 64 32
  let n : SendQ := { en := v.testBit 0, rod := v.testBit 1, ctx := bitsOf v 8 8, spray := bitsOf v 16 16, job := bitsOf v 32 24,
                     rq := bitsOf v 56 8, retry := if 1 ≤ retry ∧ retry ≤ 10 ^ 6 then retry else e.retry }
  if s.ownerBad session e.en e.ctx n.ctx || (n.en && !s.mayName session n.ctx) then s.notOwner session (0x38000 + 32 * q)
  else { s with host := { s.host with sendQs := Table.put SendQ.reset s.host.sendQs q n } }

/-- What a receive queue's entry reads as. -/
def RecvQ.value (e : RecvQ) : Nat :=
  e.en.toNat + e.ctx % 256 * 2 ^ 8 + e.job % 2 ^ 24 * 2 ^ 16 + e.logs % 16 * 2 ^ 40 + e.logz % 32 * 2 ^ 44 + e.base % 2 ^ 48 * 2 ^ 64 +
    e.freed % 2 ^ 48 * 2 ^ 128

/-- A write to a receive queue's entry; enabling it needs its sizes in range and its base a multiple of the slot size, and starts its
count of messages anew. -/
def State.writeRecvQ (s : State) (session q v : Nat) : State :=
  let e := s.recvQ q
  let n : RecvQ := { en := v.testBit 0, ctx := bitsOf v 8 8, job := bitsOf v 16 24, logs := bitsOf v 40 4, logz := bitsOf v 44 5,
                     base := bitsOf v 64 48, freed := bitsOf v 128 48, h := if e.en then e.h else 0, msgs := if e.en then e.msgs else [] }
  let sizes := decide (1 ≤ n.logs) && decide (n.logs ≤ 12) && decide (7 ≤ n.logz) && decide (n.logz ≤ 26) && n.base % 2 ^ n.logz == 0
  if s.ownerBad session e.en e.ctx n.ctx || (n.en && !s.mayName session n.ctx) then s.notOwner session (0x3A000 + 32 * q)
  else if n.en && !sizes then s
  else s.setRecvQ q n

/-- What a peer entry reads as. -/
def PeerEntry.value (e : PeerEntry) : Nat :=
  e.en.toNat + e.expr.toNat * 2 + e.expw.toNat * 4 + e.job % 2 ^ 24 * 2 ^ 8 + e.endpoint % 2 ^ 32 * 2 ^ 32 + e.expbase % 2 ^ 32 * 2 ^ 64 +
    e.explen % 2 ^ 32 * 2 ^ 96

/-- A write to a peer entry, by context and peer; while it is in use only EN changes. -/
def State.writePeer (s : State) (session ctx j v : Nat) : State :=
  let i := (ctx - 1) * 16 + j
  let e := Table.get PeerEntry.reset s.host.peers i
  let n : PeerEntry := { en := v.testBit 0, expr := v.testBit 1, expw := v.testBit 2, job := bitsOf v 8 24, endpoint := bitsOf v 32 32,
                         expbase := bitsOf v 64 32, explen := bitsOf v 96 32 }
  if !s.mayName session ctx then s.notOwner session (0x3C000 + 16 * i)
  else if e.en && ({ n with en := true } != e) then s
  else { s with host := { s.host with peers := Table.put PeerEntry.reset s.host.peers i n } }

/-! ### Mailboxes (R330, R406) -/

/-- What a mailbox reads as. -/
def Mailbox.value (b : Mailbox) : Nat :=
  b.op % 256 + b.ctx % 256 * 2 ^ 8 + b.idx % 256 * 2 ^ 16 + b.arg0 % 2 ^ 64 * 2 ^ 64 + b.arg1 % 2 ^ 64 * 2 ^ 128 + b.arg2 % 2 ^ 64 * 2 ^ 192 +
    b.busy.toNat * 2 ^ 257 + b.result % 256 * 2 ^ 264

/-- A mailbox with its fields written; START makes it busy for the session. -/
def Mailbox.write (b : Mailbox) (session v : Nat) : Mailbox :=
  let start := v.testBit 256
  { op := bitsOf v 0 8, ctx := bitsOf v 8 8, idx := bitsOf v 16 8, arg0 := bitsOf v 64 64, arg1 := bitsOf v 128 64, arg2 := bitsOf v 192 64,
    busy := start, begun := false, result := b.result, session := if start then session else b.session }

/-- A write to the context mailbox: ignored while it is busy; a START of an operation that does not exist ends at once. -/
def State.writeBox (s : State) (session v : Nat) : State :=
  if s.box.busy then s
  else
    let b := s.box.write session v
    let s := { s with box := b }
    if b.busy && (b.op == 0 || decide (9 ≤ b.op)) then s.endBox ((s.boxCheck session b.ctx).getD 1) else s

/-- The end of an operation of the keystone's mailbox: its result, and a mailbox event as R330 has it. -/
def State.endKeyBox (s : State) (result : Nat) : State :=
  let b := s.keystone.box
  let s := { s with keystone := { s.keystone with box := { b with busy := false, begun := false, result := result } } }
  let dest := if (s.ctx b.ctx).state = .free then b.session else (s.ownerSession b.ctx).getD b.session
  s.eventTo dest 4 b.ctx [b.op, result]

/-- A write to the keystone's mailbox. -/
def State.writeKeyBox (s : State) (session v : Nat) : State :=
  if s.keystone.box.busy then s
  else
    let b := s.keystone.box.write session v
    let s := { s with keystone := { s.keystone with box := b } }
    if b.busy && (b.op == 0 || decide (6 ≤ b.op)) then s.endKeyBox ((s.boxCheck session b.ctx).getD 1) else s

/-! ### Scheduler parameters (R309, R343) -/

/-- A parameter of the scheduler block, by its offset there; RETIRE reads back what was written last (log 91). -/
def Sched.param (k : Sched) (i : Nat) : Nat :=
  match i with
  | 0 => 0x00010000
  | 1 => k.ageing
  | 2 => k.watchdog
  | 3 => k.preempt.toNat
  | 4 => k.retire
  | 5 => k.thawlimit
  | 6 => k.hold
  | _ => 0

/-- A write to a parameter; values out of range are ignored. -/
def State.writeParam (s : State) (session i v : Nat) : State :=
  let k := s.sched
  let within := fun (lo hi w : Nat) => decide (lo ≤ v % 2 ^ w) && decide (v % 2 ^ w ≤ hi)
  match i with
  | 1 => if within 100 100000 17 then { s with sched := { k with ageing := v % 2 ^ 17 } } else s
  | 2 => if within 1 10000 14 then { s with sched := { k with watchdog := v % 2 ^ 14 } } else s
  | 3 => { s with sched := { k with preempt := v.testBit 0 } }
  | 4 =>
    let ctx := bitsOf v 16 8
    if s.mayName session ctx then { s with sched := { k with retire := v % 2 ^ 24 } }.retireNode ctx (v % 2 ^ 16) else s.notOwner session 0x20020
  | 5 => if within 1 1000 10 then { s with sched := { k with thawlimit := v % 2 ^ 10 } } else s
  | 6 => if within 10 1000000 20 then { s with sched := { k with hold := v % 2 ^ 20 } } else s
  | _ => s

/-! ### Read-only objects -/

/-- A context's entry (R328). -/
def Ctx.value (k : Ctx) : Nat :=
  let st := match k.state with
    | .free => 0
    | .creating => 1
    | .live => 2
    | .tearing => 3
  st + k.owner % 2 ^ 16 * 2 ^ 16 + k.ptroot % 2 ^ 48 * 2 ^ 64 + k.cores.toNat * 2 ^ 128 +
    (k.grant.zipIdx.foldl (fun a g => a + g.1.1 % 2 ^ 7 * 2 ^ (320 + 16 * g.2) + g.1.2 % 2 ^ 8 * 2 ^ (328 + 16 * g.2)) 0) +
    k.poolBase % 2 ^ 32 * 2 ^ 384 + k.poolLen % 2 ^ 32 * 2 ^ 416 + k.spill % 2 ^ 48 * 2 ^ 448 + k.spillLen % 2 ^ 16 * 2 ^ 496 +
    k.peers.toNat * 2 ^ 512 + k.frozenwr % 2 ^ 32 * 2 ^ 528

/-- A region entry (R338). -/
def Region.value (r : Region) : Nat :=
  r.valid.toNat + r.priv.toNat * 2 + r.ownerDie % 4 * 2 ^ 2 + r.thawing.toNat * 2 ^ 4 + r.draining.toNat * 2 ^ 5 + r.fcount % 256 * 2 ^ 8 +
    r.keyid % 256 * 2 ^ 16 + r.base % 2 ^ 32 * 2 ^ 32 + r.size % 2 ^ 32 * 2 ^ 64

/-- A command's record (R246); an operation without elements performs none. -/
def Cmd.value (k : Cmd) : Nat :=
  let st := match k.state with
    | .waiting => 1
    | .running => 2
    | .suspended => 3
  k.pkt.toNat + st * 2 ^ 512 + k.kind % 16 * 2 ^ 515 + k.queue % 8 * 2 ^ 520 + k.grp % 32 * 2 ^ 523 + k.trec % 64 * 2 ^ 528 + k.seq % 2 ^ 64 * 2 ^ 576 +
    (if (Packet.of k.pkt).atOnce then 0 else k.count) % 2 ^ 64 * 2 ^ 640 + k.faddr % 2 ^ 48 * 2 ^ 704 + k.fspace % 8 * 2 ^ 752 + k.bytes % 2 ^ 64 * 2 ^ 768

/-- Die control (R397). -/
def Die.control (d : Die) : Nat :=
  (match d.state with
   | .online => 0
   | .fencing => 1
   | .testing => 2
   | .retired => 3) + d.fences % 2 ^ 16 * 2 ^ 16

/-- The power register (R411): the state, and bit 31 after an ignored request. -/
def Hours.powerValue (h : Hours) : Nat :=
  (match h.power with
   | .p0 => 0
   | .p1 => 1
   | .p2 => 2
   | .p3 => 3) + h.powerIgnored.toNat * 2 ^ 31

/-- An error record as a session reads it (R396): one of a context that it does not own shows no CTX, ADDR and TASK. -/
def State.errorRecord (s : State) (session i : Nat) : Nat :=
  let r := (Table.get 0 s.hours.log i).toNat
  let ctx := bitsOf r 24 8
  if ctx = 0 || s.owns session ctx then r
  else r - ctx * 2 ^ 24 - bitsOf r 64 48 * 2 ^ 64 - bitsOf r 128 64 * 2 ^ 128

/-- A mask of the numbers below n that meet a test. -/
def maskOf (n : Nat) (p : Nat → Bool) : Nat := (List.range n).foldl (fun a i => if p i then a + 2 ^ i else a) 0

/-- A word of the capability list that the spec does not give. -/
def capFree (i : Nat) : Nat := (Config.freeWord 0 i).toNat

/-- Fenced lanes of a link: of network port `idx` with class 1, of mortar link `idx` with class 0 (log 92). -/
def Fenced.lanesOf (f : Fenced) (class_ idx : Nat) : Nat := (f.lanes.filter (fun l => l % 4 == class_ && l / 4 / 256 == idx)).length

/-- Lanes of a network port or mortar link that are healthy. -/
def State.lanesLeft (s : State) (class_ idx : Nat) : Nat :=
  Config.linkLanes ((if class_ = 1 then 0x700 else 0x800) + idx) % 2 ^ 16 - s.hours.fenced.lanesOf class_ idx

/-- The bodies of the capability records by ID, as dwords (R402): the units of a die that is not Online are absent (R4). Which dword holds what, that
HBM's healthy channels are a mask, and that there are 8 mortar links and two healthy I/O dies is the model's (log 92). -/
def State.capBody (s : State) (id : Nat) : List Nat :=
  let f := s.hours.fenced
  match id with
  | 1 => [s.hours.gen, maskOf 4 (fun d => (s.die d).state == .online) + 3 * 2 ^ 8, 1, 0x7440]
  | 2 =>
    let m := maskOf Config.cores (fun c => !f.cores.contains c && (s.die (dieOf c)).state == .online)
    [m % 2 ^ 64, m / 2 ^ 64 % 2 ^ 64, m / 2 ^ 128]
  | 3 => (List.range Config.dies).flatMap (fun d =>
      let m := maskOf 512 (fun b => (s.die d).state == .online && !f.banks.contains (d, b))
      (List.range 8).map (fun i => m / 2 ^ (64 * i) % 2 ^ 64))
  | 4 =>
    let m := maskOf 128 (fun i => (s.die (i / 32)).state == .online && !f.slices.contains i)
    [m % 2 ^ 64, m / 2 ^ 64]
  | 5 => (List.range 12).map (fun k =>
      let here := (List.range 32).filter (fun i => (s.die (k / 3)).state == .online && !f.channels.contains (k * 32 + i))
      maskOf 32 (fun i => here.contains i) + Config.hbmBytes / 12 * here.length / 32 / 2 ^ 20 * 2 ^ 32)
  | 6 => [4, capFree 0x600, Config.secondTierBytes / 2 ^ 20]
  | 7 => (List.range 16).map (fun p => s.lanesLeft 1 p + (!f.ports.contains p).toNat * 2 ^ 16)
  | 8 => (List.range 8).map (fun l => s.lanesLeft 0 l)
  | 9 => [capFree 0x900, 0x00010000, s.keystone.secver]
  | _ => []

/-- The capability list from 0x1000 on, as dwords, record after record (R401). -/
def State.capList (s : State) : List Nat :=
  ((List.range 9).foldl (fun (acc : List Nat × Nat) i =>
    let b := s.capBody (i + 1)
    let next := acc.2 + 16 + 8 * b.length
    (acc.1 ++ [(i + 1) + 2 ^ 16 + 8 * b.length * 2 ^ 32, if i = 8 then 0 else next] ++ b, next)) ([], 0x1000)).1

/-- A telemetry counter (R413); what the device measures of its power, its clocks and its HBM traffic is a free value. -/
def State.telemetryValue (s : State) (off : Nat) : Nat :=
  if off = 0x1F0 then s.ns
  else if 0x100 ≤ off && off < 0x120 then (s.die ((off - 0x100) / 8)).temp % 2 ^ 32 + (Config.freeWord s.tick off).toNat % 2 ^ 32 * 2 ^ 32
  else if 0x140 ≤ off && off < 0x160 || 0x190 ≤ off && off < 0x1F0 then (Config.freeWord s.tick off).toNat
  else if off = 0x188 then (Config.freeWord s.tick off).toNat % 2 ^ 32
  else Table.get 0 s.hours.telemetry off

/-! ### The map (R414) -/

/-- An object of the register space. -/
inductive RegObj where
  | status
  | cap (i : Nat)
  | loghead
  | logRecord (i : Nat)
  | keyBox
  | param (i : Nat)
  | launchQ (q : Nat)
  | box
  | ctxEntry (c : Nat)
  | window (w : Nat)
  | sendQ (q : Nat)
  | recvQ (q : Nat)
  | peer (c j : Nat)
  | region (c i : Nat)
  | reset
  | power
  | powercap
  | telemetry (off : Nat)
  | dieControl (d : Nat)
  | hodQ (core q : Nat)
  | hodCmd (core slot : Nat)
  | bindRecord (core r : Nat)
  deriving DecidableEq, Repr

/-- The object that an offset belongs to, with its first offset and its bytes; none where nothing is listed. -/
def regObj (o : Nat) : Option (RegObj × Nat × Nat) :=
  let at_ := fun (base size : Nat) (f : Nat → RegObj) => some (f ((o - base) / size), base + (o - base) / size * size, size)
  if o < 8 then some (.status, 0, 8)
  else if 0x1000 ≤ o && o < 0x10000 then at_ 0x1000 8 .cap
  else if 0x10000 ≤ o && o < 0x10008 then some (.loghead, 0x10000, 8)
  else if 0x11000 ≤ o && o < 0x15000 then at_ 0x11000 64 .logRecord
  else if 0x18000 ≤ o && o < 0x18040 then some (.keyBox, 0x18000, 64)
  else if 0x20000 ≤ o && o < 0x20038 then at_ 0x20000 8 .param
  else if 0x20100 ≤ o && o < 0x20300 then at_ 0x20100 32 .launchQ
  else if 0x20800 ≤ o && o < 0x20840 then some (.box, 0x20800, 64)
  else if 0x21080 ≤ o && o < 0x23080 then at_ 0x21000 128 .ctxEntry
  else if 0x30000 ≤ o && o < 0x30400 then at_ 0x30000 16 .window
  else if 0x38000 ≤ o && o < 0x3A000 then at_ 0x38000 32 .sendQ
  else if 0x3A000 ≤ o && o < 0x3C000 then at_ 0x3A000 32 .recvQ
  else if 0x3C000 ≤ o && o < 0x40000 then at_ 0x3C000 16 (fun i => .peer (i / 16 + 1) (i % 16))
  else if 0x41000 ≤ o && o < 0x81000 then at_ 0x40000 16 (fun i => .region (i / 256) (i % 256))
  else if 0x90000 ≤ o && o < 0x90008 then some (.reset, 0x90000, 8)
  else if 0x90008 ≤ o && o < 0x90010 then some (.power, 0x90008, 8)
  else if 0x90010 ≤ o && o < 0x90018 then some (.powercap, 0x90010, 8)
  else if 0x91000 ≤ o && o < 0x91200 then at_ 0x91000 8 (fun i => .telemetry (8 * i))
  else if 0xA0000 ≤ o && o < 0xA0040 then at_ 0xA0000 16 .dieControl
  else if 0x1000000 ≤ o && o < 0x1000000 + Config.cores * 0x10000 then
    let core := (o - 0x1000000) / 0x10000
    let b := o % 0x10000
    if b < 0x80 then some (.hodQ core (b / 16), o / 16 * 16, 16)
    else if 0x1000 ≤ b && b < 0x5000 then some (.hodCmd core ((b - 0x1000) / 128), o / 128 * 128, 128)
    else if 0x8000 ≤ b && b < 0x8C00 then some (.bindRecord core ((b - 0x8000) / 64), o / 64 * 64, 64)
    else none
  else none

/-- What an object reads as for a session. -/
def State.regValue (s : State) (session : Nat) : RegObj → Nat
  | .status => s.hours.status
  | .cap i => s.capList.getD i 0
  | .loghead => s.hours.loghead
  | .logRecord i => s.errorRecord session i
  | .keyBox => s.keystone.box.value
  | .param i => s.sched.param i
  | .launchQ q => (Table.get LaunchQ.reset s.sched.queues q).value
  | .box => s.box.value
  | .ctxEntry c => (s.ctx c).value
  | .window w => (Table.get Window.reset s.host.windows w).value
  | .sendQ q => (Table.get SendQ.reset s.host.sendQs q).value
  | .recvQ q => (s.recvQ q).value
  | .peer c j => (Table.get PeerEntry.reset s.host.peers ((c - 1) * 16 + j)).value
  | .region c i => (s.region c i).value
  | .reset => 0
  | .power => s.hours.powerValue
  | .powercap => s.hours.powercap
  | .telemetry off => s.telemetryValue off
  | .dieControl d => (s.die d).control
  | .hodQ core q => if q = 0 then 1 else ((s.core core).hod.entry q).value
  | .hodCmd core slot => ((s.cmd core slot).map Cmd.value).getD 0
  | .bindRecord core r => (s.bindRec core r).toNat

/-- A byte of the register space. -/
def State.regByte (s : State) (session o : Nat) : Byte :=
  match regObj o with
  | none => 0
  | some (x, base, _) => BitVec.ofNat 8 (s.regValue session x / 256 ^ (o - base))

/-- Bytes of the register space. -/
def State.regRead (s : State) (session o n : Nat) : List Byte := (List.range n).map (fun i => s.regByte session (o + i))

end Sys2Proof.Machine
end

