-- ==== Sys2Proof/Machine/Keystone.lean ====
section
/-!
DEFINITION. Keystone: the operations of the keystone's mailbox (R405 to R409): SHAREKEY, DROPKEY, ATTEST, GETCERT and STAGEFW.
-/

namespace Sys2Proof.Machine

/-- Whether the keystone's mailbox holds an operation of a session. -/
def State.keyBoxHas (s : State) (session op : Nat) : Bool :=
  let b := s.keystone.box
  b.busy && b.op == op && b.session == session

/-- An operation of the keystone's mailbox: the checks of R330, then its effect; one that must wait stays in the mailbox. -/
def State.keyBoxOp (s : State) (session op : Nat) (f : State → Nat → State) : Host.Outcome State Fault Refusal :=
  if !s.keyBoxHas session op then .next s
  else match s.boxCheck session s.keystone.box.ctx with
    | some r => .next (s.endKeyBox r)
    | none => .next (f s s.keystone.box.ctx)

/-! ### Device memory of a context -/

/-- What the keystone finds in device memory: bytes, a refusal, or a wait. -/
inductive KeyGot where
  | ok (s : State) (bs : List Byte)
  | refused
  | wait (s : State)

/-- Reads n bytes of a context's device memory at the home slices. -/
def keyRead (s : State) (ctx va : Nat) : Nat → KeyGot
  | 0 => .ok s []
  | n + 1 => match hostRead s ctx va 1 with
    | .ok s v => (match keyRead s ctx (va + 1) n with
      | .ok s bs => .ok s (BitVec.ofNat 8 v :: bs)
      | x => x)
    | .refused .. => .refused
    | .wait s => .wait s

/-- Writes bytes to a context's device memory at the home slices. -/
def keyWrite (s : State) (ctx va : Nat) : List Byte → KeyGot
  | [] => .ok s []
  | b :: r => match hostWrite s ctx va b.toNat 1 0 with
    | .ok s _ => keyWrite s ctx (va + 1) r
    | .refused .. => .refused
    | .wait s => .wait s

/-- The end of an operation that wrote memory, or RESULT 1 where the memory refuses it; one that waits begins anew. -/
def KeyGot.finish (g : KeyGot) (s0 : State) : State :=
  match g with
  | .ok s _ => s.endKeyBox 0
  | .refused => s0.endKeyBox 1
  | .wait s => { s0 with sched := { s0.sched with faults := s.sched.faults } }

/-! ### Shared keys (R405, R406) -/

/-- The shared keys of an owner. -/
def Keystone.keysOf (k : Keystone) (owner : Nat) : List Nat := (k.shared.filter (fun e => e.1 == owner)).map (·.2.1)

/-- The lowest KEYID that an owner does not hold; none when the owner or the package has no room (log 86). -/
def State.freeKey (s : State) (owner : Nat) : Option Nat :=
  let held := s.keystone.keysOf owner
  if 255 ≤ held.length || !s.keySlotsLeft then none else ((List.range 255).map (· + 1)).find? (fun n => !held.contains n)

/-- A shared key for an owner, derived from a fresh nonce: ARG0 receives its KEYID. -/
def State.shareKey (s : State) (owner : Nat) : State :=
  match s.freeKey owner with
  | none => s.endKeyBox 4
  | some n =>
    let k := s.keystone
    { s with keystone := { k with shared := k.shared ++ [(owner, n, k.nonces)], nonces := k.nonces + 1, box := { k.box with arg0 := n } } }.endKeyBox 0

/-- SHAREKEY: an owner's first takes its owner id from the session, with no context needed. -/
def execSharekey (session : Nat) (s : State) : Host.Outcome State Fault Refusal :=
  let c := s.keystone.box.ctx
  let owner := s.ownerOf session
  let first := (s.keystone.keysOf owner).isEmpty && (decide (c = 0) || (s.ctx c).state == .free)
  if s.keyBoxHas session 1 && first then .next (s.shareKey owner)
  else s.keyBoxOp session 1 (fun s _ => s.shareKey owner)

/-- Whether a valid region entry of an owner's contexts names a key. -/
def State.keyUsed (s : State) (owner key : Nat) : Bool :=
  s.ctxs.any (fun e => e.2.state != .free && e.2.owner == owner && e.2.regions.any (fun r => r.2.valid && r.2.keyid == key))

/-- DROPKEY. -/
def execDropkey (session : Nat) (s : State) : Host.Outcome State Fault Refusal :=
  s.keyBoxOp session 2 (fun s _ =>
    let owner := s.ownerOf session
    let key := s.keystone.box.arg0
    if !(s.keystone.keysOf owner).contains key then s.endKeyBox 1
    else if s.keyUsed owner key then s.endKeyBox 2
    else { s with keystone := { s.keystone with shared := s.keystone.shared.filter (fun e => !(e.1 == owner && e.2.1 == key)) } }.endKeyBox 0)

/-! ### Attestation (R407 to R409) -/

/-- A hash as bytes in output order. -/
def hashBytes (h : BitVec 384) : List Byte := (List.range 48).map (fun k => h.extractLsb' (8 * (47 - k)) 8)

/-- The 32 bytes of a context that its entry of the report hashes: CORES, then GRANT. -/
def Ctx.attested (k : Ctx) : List Byte :=
  bytesLE k.cores.toNat 24 ++ (k.grant.flatMap (fun g => bytesLE (g.1 + g.2 * 2 ^ 8) 2))

/-- The entries of an owner's contexts, 24 at most, lowest numbers first. -/
def State.attestEntries (s : State) (owner : Nat) : List Byte :=
  let mine := (s.ctxs.filter (fun e => e.2.state != .free && e.2.owner == owner)).take 24
  let es := mine.flatMap (fun e => [BitVec.ofNat 8 e.1, 0] ++ (hashBytes (Config.digest e.2.attested)).take 6)
  es ++ List.replicate (192 - es.length) 0

/-- The signed part of the report. -/
def State.report (s : State) (owner : Nat) (nonce : List Byte) : List Byte :=
  let k := s.keystone
  bytesLE 1 4 ++ bytesLE 544 4 ++ nonce ++ hashBytes (Config.firmwareHash 0 k.firmware) ++ hashBytes (Config.firmwareHash 1 k.firmware) ++
    hashBytes (Config.attestHash k.attest) ++ hashBytes (Config.digest (s.capList.flatMap (fun w => bytesLE w 8))) ++
    bytesLE k.secver 4 ++ bytesLE s.hours.gen 4 ++ s.attestEntries owner

/-- ATTEST: the report for the calling owner at ARG1, with the nonce read at ARG0. -/
def execAttest (session : Nat) (s : State) : Host.Outcome State Fault Refusal :=
  s.keyBoxOp session 3 (fun s c =>
    let b := s.keystone.box
    if b.arg1 % 64 ≠ 0 then s.endKeyBox 1
    else match keyRead s c b.arg0 48 with
      | .ok s1 nonce =>
        let r := s1.report (s.ownerOf session) nonce
        let sig := (Config.signatureOf r ++ List.replicate 96 0).take 96
        (keyWrite s1 c b.arg1 (r ++ sig)).finish s
      | g => g.finish s)

/-- GETCERT: the first ARG1 bytes of the identity certificate chain, at ARG0. -/
def execGetcert (session : Nat) (s : State) : Host.Outcome State Fault Refusal :=
  s.keyBoxOp session 4 (fun s c =>
    let b := s.keystone.box
    (keyWrite s c b.arg0 (Config.certificate.take b.arg1)).finish s)

/-- STAGEFW: an image is verified and staged for the next package reset; a refusal raises event 10 with UNIT 15 (R407). -/
def execStagefw (session : Nat) (s : State) : Host.Outcome State Fault Refusal :=
  s.keyBoxOp session 5 (fun s c =>
    let b := s.keystone.box
    match keyRead s c b.arg0 b.arg1 with
    | .ok s1 image =>
      if Config.signatureOk image && decide (s.keystone.secver ≤ Config.imageVersion image) then
        { s1 with keystone := { s1.keystone with staged := some image } }.endKeyBox 0
      else (s1.recordError { cls := 0, unit := 15, die := 5, ctx := 0, index := 0, addr := 0, task := 0, action := 0 }).endKeyBox 1
    | g => g.finish s)

end Sys2Proof.Machine
end

