-- ==== Sys2Proof/Machine/Hours.lean ====
section
/-!
DEFINITION. Hours: errors, containment and fences (R387 to R400), resets (R410), power (R411) and cooling (R412).
-/

namespace Sys2Proof.Machine

/-! ### Counting errors (R394 to R396) -/

/-- Errors that count against a unit's threshold, by fence kind and index. -/
def errorKey (kind idx : Nat) : Nat := kind * 2 ^ 32 + idx

/-- One more error of a unit, among those of the last span of nanoseconds. -/
def State.noteError (s : State) (kind idx span : Nat) : State :=
  let old := (Table.get [] s.hours.errorTimes (errorKey kind idx)).filter (fun t => decide (s.ns < t + span))
  { s with hours := { s.hours with errorTimes := s.hours.errorTimes.insert (errorKey kind idx) (old ++ [s.ns]) } }

/-- Errors of a unit within the last span. -/
def State.errorsIn (s : State) (kind idx span : Nat) : Nat :=
  ((Table.get [] s.hours.errorTimes (errorKey kind idx)).filter (fun t => decide (s.ns < t + span))).length

/-- A nanosecond count of one second. -/
def oneSecond : Nat := 1000000000

/-- A corrected error is counted, and recorded at most once a second for each unit (R395). -/
def State.corrected (s : State) (unit die index addr : Nat) : State :=
  let s := s.countCorrected unit
  let k := errorKey unit (die * 2 ^ 16 + index)
  if ((s.hours.correctedAt.find k).map (fun t => decide (s.ns < t + oneSecond))).getD false then s
  else
    { s with hours := { s.hours with correctedAt := s.hours.correctedAt.insert k s.ns } }.recordError
      { cls := 1, unit := unit, die := die, ctx := 0, index := index, addr := addr % 2 ^ 48, task := 0, action := 1 }

/-! ### Containment (R390, R391) -/

/-- The teams of a task stop without a trap, and the task fails (R324). -/
def State.stopTask (s : State) (task : Nat) : State :=
  match s.sched.tasks.find task with
  | none => s
  | some t =>
    let s := (t.teams.foldl (fun s x => s.stopTeam x.1 x.2 0 0 0) s).failTask task
    let held := s.cores.flatMap (fun c => (c.2.hod.cmds.filter (fun e =>
      e.2.queue == 0 && e.2.task == task && e.2.state == .suspended && e.2.kind == 0)).map (fun e => (c.1, e.1)))
    held.foldl (fun s x => s.abandon x.1 x.2) s

/-- An Open task that is to run again is discarded with its mark of having met poison. -/
def State.discardPoisoned (s : State) (task : Nat) : State :=
  ((s.modTask task (fun t => { t with gang := { t.gang with poisoned := true, records := t.gang.records.map (fun (r : ContRec) => { r with poisoned := true }) } })).discardTask
    task true).taskEnd task

/-- A task that was already stopping keeps its course: the stop found a commit and the task fails, or it found none and the discard stands. -/
def State.containStopping (s : State) (task : Nat) (t : Task) (commit : Bool) : State × Nat :=
  let s := if t.mailbox then s.endBox (if commit then 2 else 0) else s
  let s := s.modTask task (fun t => { t with mailbox := false })
  if commit then ((s.modTask task (fun t => { t with state := .committed })).stopTask task, 4) else (s.discardPoisoned task, 3)

/-- What containment does to a task, with the ACTION of its record (R391). -/
def State.containTask (s : State) (task : Nat) : State × Nat :=
  match s.sched.tasks.find task with
  | none => (s, 3)
  | some t => match t.state with
    | .stopping c => s.containStopping task t c
    | .discarding _ => (s, 3)
    | .committed => (s.stopTask task, 4)
    | _ => if t.failed || t.gang.poisoned then (s.stopTask task, 4) else (s.discardPoisoned task, 3)

/-- Contains a task for an error, with what its record says. -/
def State.containAt (s : State) (task unit die index addr : Nat) : State × ErrorInfo :=
  let t := s.sched.tasks.find task
  let r := s.containTask task
  let ctx := (t.map (·.ctx)).getD 0
  (r.1, { cls := 3, unit := unit, die := die, ctx := if r.1.live ctx then ctx else 0, index := index, addr := addr % 2 ^ 48,
          task := (t.map (fun t => task * 16 + t.slot)).getD 0, action := r.2 })

/-- Contains a task for an error and writes its record. -/
def State.contain (s : State) (task unit die index addr : Nat) : State :=
  let r := s.containAt task unit die index addr
  r.1.recordError r.2

/-- CONTAINMENT: the oldest error detected is one that this task has met: it is contained, and its record and those that waited behind it are
written (R396). -/
def execContainment (task : Nat) (s : State) : Host.Outcome State Fault Refusal :=
  match s.hours.contained with
  | .consumed t unit core place addr :: rest =>
    if t ≠ task then .next s
    else
      let at_ := s.errorPlace unit core place
      let r := ({ s with hours := { s.hours with contained := rest } }.countUncorrected unit).containAt task unit at_.1 at_.2 addr
      .next (r.1.writeRecord r.2).flushRecords
  | _ => .next s

/-! ### Soft errors and scrubbing (R387 to R389) -/

/-- A list of poisoned words with one more. -/
def State.addPoison (s : State) (x : PoisonAt) : State :=
  { s with hours := { s.hours with poison := if s.hours.poison.contains x then s.hours.poison else s.hours.poison ++ [x] } }

/-- Poisons a register: `word` packs the team record, group, lane and number. -/
def State.poisonReg (s : State) (core word : Nat) : State :=
  s.modThread core (word / 2 ^ 18) (word / 2 ^ 13 % 32) (word / 2 ^ 8 % 32) (fun th =>
    if th.poison.contains (word % 256) then th else { th with poison := th.poison ++ [word % 256] })

/-- The fence kind and index of the unit that holds a word of an array. -/
def State.unitOf (s : State) (unit owner word : Nat) : Option (Nat × Nat) :=
  match unit with
  | 1 | 2 | 3 | 13 => some (0, owner)
  | 4 => some (1, owner * 512 + s.bankOf owner (word / 32))
  | 5 | 6 => some (2, s.dieSlice owner (8 * word))
  | 7 => some (3, word / 512 % 12 * 32 + Config.hbmChannel (8 * word) % 32)
  | _ => none

/-- Whether an array has a word (R3): cores and dies by `owner`, device memory by the word. A core's hod read cache, hod queues, command records, slot
table and team records are its core logic (log 94). -/
def errorExists (unit owner word : Nat) : Bool :=
  match unit with
  | 1 => decide (owner < Config.cores) && decide (word < 48 * 2 ^ 18)
  | 2 => decide (owner < Config.cores) && decide (word < 1048576 / 8)
  | 3 => decide (owner < Config.cores) && decide (word < 262144 / 8)
  | 4 => decide (owner < Config.dies) && decide (word < 33554432 / 8)
  | 5 => decide (owner < Config.dies)
  | 6 => decide (owner < Config.dies)
  | 7 => decide (8 * word < Config.hbmBytes)
  | 8 => decide (2 ^ 52 ≤ 8 * word) && decide (8 * word < 2 ^ 52 + Config.secondTierBytes)
  | 13 => decide (owner < Config.cores) && decide (word < 0x4000)
  | _ => false

/-- The die and index of a soft error's record. -/
def State.softPlace (s : State) (unit owner word : Nat) : Nat × Nat :=
  match s.unitOf unit owner word with
  | some (0, c) => (dieOf c, c % Config.coresPerDie)
  | some (1, b) => (b / 512, b % 512)
  | some (2, k) => (k / 32, k % 32)
  | some (_, c) => (c / 96, c % 96)
  | none => (4 + Config.freeChoice s.tick word % 2, 0)

/-- A copy that is dropped and fetched again (R387). -/
def State.refetched (s : State) (unit owner word : Nat) : State :=
  let at_ := s.softPlace unit owner word
  (s.countUncorrected unit).recordError
    { cls := 2, unit := unit, die := at_.1, ctx := 0, index := at_.2, addr := if unit = 5 then 8 * word % 2 ^ 48 else 0, task := 0, action := 2 }

/-- An uncorrectable error in an L2 word: a Clean sector is dropped and fetched again, any other word is poisoned (R387, R389). -/
def State.poisonL2 (s : State) (die word : Nat) : State :=
  match (s.die die).l2.find (word / 8) with
  | none => s
  | some x =>
    if x.st == .clean && !(s.die die).pins (word / 8) then (s.dropSector die (word / 8)).refetched 5 die word
    else if x.st == .pending then s
    else s.addPoison (.l2 die word)

/-- The task whose team is bound in a record of a core. -/
def State.taskAt (s : State) (core r : Nat) : Option Nat := (s.sched.tasks.find? (fun t => t.2.teams.contains (core, r))).map (·.1)

/-- An uncorrectable error in a core's logic (R388), by word: from 0 the hod's read cache, from 0x1000 the packets of queue 0, from 0x1400 the command
records, from 0x2000 the slot table, from 0x3000 the team and barrier records. A read-cache line is fetched again; elsewhere the word is consumed for
the task, or the ring's command, that it belongs to (log 94). -/
def State.poisonLogic (s : State) (core word : Nat) : State :=
  let meet := fun (t : Option Nat) => match t with
    | some task => s.consumePoison task 13 core word 0
    | none => s.countUncorrected 13
  if word < 0x1000 then s.refetched 13 core word
  else if word < 0x1400 then meet ((s.core core).hod.q0[(word - 0x1000) / 8]?.map (·.task))
  else if word < 0x2000 then
    match s.cmd core ((word - 0x1400) / 16) with
    | some k => s.cmdPoison core ((word - 0x1400) / 16) k 13 word 0
    | none => s.countUncorrected 13
  else if word < 0x3000 then meet (s.taskAt core ((word - 0x2000) / 8))
  else meet (s.taskAt core ((word - 0x3000) / 64))

/-! ### Links (R394) -/

/-- LINK_FLIT_RETRY: a link's number is four times its lane, plus 0 for mortar, 1 for the network, 2 for the GCL and 3 for CXL. -/
def execLinkFlitRetry (link : Nat) (s : State) : Host.Outcome State Fault Refusal :=
  .next (((s.count 0x180 1).noteError 4 link oneSecond).corrected (9 + link % 4) 4 (link / 4 % 2 ^ 16) 0)

/-! ### Unit fences (R4, R394, R396, R400) -/

/-- The capability list changes (R402): GEN passes an odd value and is even again. -/
def State.bumpGen (s : State) : State := { s with hours := { s.hours with gen := s.hours.gen + 2 } }

/-- Waiting gangs that a fence leaves with no placement are removed (R310). -/
def State.dropUnplaceable (s : State) : State := ((s.ctxs.filter (fun e => e.2.state == .live)).map (·.1)).foldl (fun s c => s.removeUnplaceable c) s

/-- Every task with a team on a core of a set is contained. -/
def State.containOn (s : State) (p : Nat → Bool) (unit : Nat) : State :=
  let ts := (s.sched.tasks.filter (fun t => t.2.teams.any (fun x => p x.1))).map (fun t => (t.1, (t.2.teams.find? (fun x => p x.1)).getD (0, 0)))
  ts.foldl (fun s t => s.contain t.1 unit (dieOf t.2.1) (t.2.1 % Config.coresPerDie) 0) s

/-- The record of a unit fence (R387, R395). -/
def State.fenceRecord (s : State) (unit die index : Nat) : State :=
  s.recordError { cls := 5, unit := unit, die := die, ctx := 0, index := index, addr := 0, task := 0, action := 6 }

/-- A hod that leaves service performs nothing more: its commands are abandoned, and the packets that it has not accepted (log 93). -/
def State.stopHod (s : State) (core : Nat) : State :=
  let s := ((s.core core).hod.cmds.map (·.1)).foldl (fun s slot => s.abandon core slot) s
  let q0 := (s.core core).hod.q0
  let s := s.modHod core (fun h => { h with q0 := [], ready := [] })
  q0.foldl (fun s x => s.flightDone core 0 x.seq) s

/-- Fences a core: the tasks on it are contained, and its hod stops. -/
def State.fenceCore (s : State) (c : Nat) : State :=
  let s := { s with hours := { s.hours with fenced := { s.hours.fenced with cores := s.hours.fenced.cores ++ [c] } } }
  ((s.containOn (· == c) 13).stopHod c).fenceRecord 13 (dieOf c) (c % Config.coresPerDie)

/-- Fences a tile-store bank: the lines keep their numbers, and those above the new top are gone (R204). -/
def State.fenceBank (s : State) (die bank : Nat) : State :=
  let s := { s with hours := { s.hours with fenced := { s.hours.fenced with banks := s.hours.fenced.banks ++ [(die, bank)] } } }
  let top := (s.healthyBanks die).length * 256
  (s.modDie die (fun d =>
    { d with tile := d.tile.filter (fun e => decide (e.1 < 256 * top)), counts := d.counts.filter (fun e => decide (e.1 < top)),
             locks := d.locks.filter (fun e => decide (8 * e.1 < 256 * top)) })).fenceRecord 4 die bank

/-- Fences an L2 slice: its dirty sectors go home and its copies are dropped, and homes are hashed over the slices that remain, where no die keeps a
copy of what it now holds the home of. -/
def State.fenceSlice (s : State) (slice : Nat) : State :=
  let die := slice / 32
  let p : SectorTest := fun k _ => s.dieSlice die (64 * k) == slice
  let s := s.drainDie p die
  let s := (s.sectorsOf die (fun k x => p k x && x.st == .clean && !(s.die die).pins k)).foldl (fun s k => s.dropSector die k) s
  { s with hours := { s.hours with fenced := { s.hours.fenced with slices := s.hours.fenced.slices ++ [slice] } } }.settleHomes.fenceRecord 5 die
    (slice % 32)

/-- The live launches of a context that a test picks fail, with one class 8 record for the context. -/
def State.loseLaunches (s : State) (ctx die unit : Nat) (p : Launch → Bool) : State :=
  let ls := (s.sched.launches.filter (fun l => l.2.ctx == ctx && !l.2.ended && p l.2)).map (·.1)
  if ls.isEmpty then s
  else
    let s := ls.foldl (fun s g =>
      let ts := (s.sched.tasks.filter (fun t => t.2.grid == g)).map (·.1)
      let s := ts.foldl State.stopTask s
      let s := s.modSummary g (fun m => { m with failed := true })
      if ts.isEmpty then s.failGrid g (2 ^ 64) else s) s
    s.recordError { cls := 8, unit := unit, die := die, ctx := ctx, index := 0, addr := 0, task := 0, action := 8 }

/-- The leaves of a context that map HBM. -/
def State.hbmLeaves (s : State) (ctx : Nat) : List Leaf := (s.leaves ctx 0 0xFFFF00000000).filter (fun l => decide (l.key / 2 ^ 52 = 0))

/-- The live contexts that map HBM. -/
def State.hbmUsers (s : State) : List Nat := ((s.ctxs.filter (fun e => e.2.state == .live)).map (·.1)).filter (fun c => !(s.hbmLeaves c).isEmpty)

/-- Fences an HBM channel: what it held is lost to every context that maps HBM, since a page has bytes in every channel (R387; log 85). -/
def State.fenceChannel (s : State) (ch : Nat) : State :=
  let s := { s with hours := { s.hours with fenced := { s.hours.fenced with channels := s.hours.fenced.channels ++ [ch] } } }.fenceRecord 7 (ch / 96) (ch % 96)
  s.hbmUsers.foldl (fun s c => s.loseLaunches c (ch / 96) 7 (fun _ => true)) s

/-! ### The scheduler core (R393) -/

/-- SCHEDULER_TAKEOVER: the standby on IO0 goes on from the mirrored state, where page faults start again; a second failure stops all scheduling. -/
def execSchedulerTakeover (s : State) : Host.Outcome State Fault Refusal :=
  if s.sched.standby then .next { s with sched := { s.sched with stopped := true } }
  else
    let s := { s with sched := { s.sched with standby := true, faults := s.sched.faults.map (fun (f : PageFault) => { f with begun := none }) } }
    .next (s.recordError { cls := 9, unit := 15, die := 4, ctx := 0, index := 0, addr := 0, task := 0, action := 10 })

/-! ### Die fences (R397, R398) -/

/-- Step 2 of a die fence: the die drains; where the drain cannot complete, the launches that had teams there fail. -/
def State.fenceDrain (s : State) (d : Nat) : State :=
  let lines := (s.die d).l2counts.map (·.1)
  let s := s.resolveWhere true (fun _ _ _ => false) (fun x l _ => x == d && lines.contains l)
  let dirty := !(s.sectorsOf d (fun _ x => x.st == .dirty)).isEmpty
  let failed := dirty && (!s.drainable (fun _ _ => true) [d] || Config.drainFails s.tick d)
  let s := if failed then s else s.drainDie (fun _ _ => true) d
  let s := (s.sectorsOf d (fun _ _ => true)).foldl (fun s k => s.dropSector d k) s
  if failed then (s.ctxs.map (·.1)).foldl (fun s c => s.loseLaunches c d 5 (fun l => l.teamDies.getLsbD d)) s else s

/-- Step 4 of a die fence: what the die's tile store held is unspecified from now on. -/
def State.loseTile (s : State) (d : Nat) : State :=
  let s := s.modDie d (fun x => { x with tile := x.tile.scramble (Config.freeByte s.tick) (fun _ => true), counts := [], locks := [] })
  { s with hours := { s.hours with poison := s.hours.poison.filter (fun x => match x with
      | .tile e _ => e != d
      | .tag e _ => e != d
      | _ => true) } }

/-- A die goes from Online to Fencing: its homes are out of service, its cores and hods stop, and the tasks with teams on it are contained (R398, step
1). -/
def State.fenceDie (s : State) (die unit : Nat) : State :=
  if (s.die die).state != .online then s
  else
    let s := s.modDie die (fun d => { d with state := .fencing, fences := min (d.fences + 1) 65535 })
    let s := s.recordError { cls := 6, unit := unit, die := die, ctx := 0, index := 0, addr := 0, task := 0, action := 7 }
    let s := s.containOn (fun c => dieOf c == die) 14
    ((((List.range Config.coresPerDie).map (die * Config.coresPerDie + ·)).foldl State.stopHod s).settleHomes).bumpGen.dropUnplaceable

/-- DIE_FAULT: an Online die begins to be fenced; of one that is Fencing the rest of R398 is done, and it goes to its tests. -/
def execDieFault (die : Nat) (s : State) : Host.Outcome State Fault Refusal :=
  if Config.dies ≤ die then .next s
  else match (s.die die).state with
    | .online => .next (s.fenceDie die 14)
    | .fencing => .next (((s.fenceDrain die).loseTile die).modDie die (fun d => { d with state := .testing }))
    | _ => .next s

/-- A die's HBM cannot be read back: what it held no key reads any more, the contexts that map it lose their launches, and the pages until the host
maps them again. Every page of HBM has bytes on every die (R415). -/
def State.loseHbm (s : State) (d : Nat) : State :=
  let users := s.hbmUsers
  let pages := users.flatMap (fun c => (s.hbmLeaves c).map (fun l => (c, l.base, l.size)))
  let sectors := ((s.far.map (fun (e : Nat × Byte) => e.1 / 64) ++ s.farKeys.map (fun (e : Nat × (Nat × Nat)) => e.1)).eraseDups).filter (fun k =>
    decide (64 * k < 2 ^ 52) && stackDie (64 * k) == d)
  let s := { s with farKeys := sectors.foldl (fun (t : Table (Nat × Nat)) k => t.insert k (s.keystone.nonces, s.tick)) s.farKeys,
                    keystone := { s.keystone with nonces := s.keystone.nonces + 1 } }
  let s := users.foldl (fun s c => (s.loseLaunches c d 7 (fun _ => true)).tlbRemove (fun l => l.ctx == c && decide (l.key / 2 ^ 52 = 0))) s
  { s with hours := { s.hours with lostPages := s.hours.lostPages ++ pages } }

/-- DIE_TEST_COMPLETE. -/
def execDieTestComplete (die : Nat) (pass : Bool) (s : State) : Host.Outcome State Fault Refusal :=
  if (s.die die).state ≠ .testing then .next s
  else
    let s := if !pass || Config.hbmLost s.tick die then s.loseHbm die else s
    if pass then
      .next ((s.modDie die (fun d => { d with state := .online })).settleHomes.bumpGen.recordError
        { cls := 7, unit := 14, die := die, ctx := 0, index := 0, addr := 0, task := 0, action := 9 })
    else .next (s.modDie die (fun d => { d with state := .retired }))

/-- DIE_READMIT: the host asks for a Retired die. -/
def execDieReadmit (die : Nat) (s : State) : Host.Outcome State Fault Refusal :=
  if (s.die die).state ≠ .retired then .next s else .next (s.modDie die (fun d => { d with state := .testing }))

/-! ### Lanes and units (R394, R396, R400) -/

/-- Fences a lane of a link, which runs on with fewer: with its last lane a network port is down (R355), and a die that loses its link to its I/O die is
fenced. -/
def State.fenceLane (s : State) (link : Nat) : State :=
  let s := { s with hours := { s.hours with fenced := { s.hours.fenced with lanes := s.hours.fenced.lanes ++ [link] } } }.fenceRecord (9 + link % 4) 4
    (link / 4 % 2 ^ 16)
  let idx := link / 4 / 256
  if link % 4 = 1 ∧ idx < 16 ∧ s.lanesLeft 1 idx = 0 then
    { s with hours := { s.hours with fenced := { s.hours.fenced with ports := s.hours.fenced.ports ++ [idx] } } }
  else if link % 4 = 0 ∧ 4 ≤ idx ∧ idx < 8 ∧ s.lanesLeft 0 idx = 0 then s.fenceDie (idx - 4) 9
  else s

/-- Whether a unit has passed its threshold and is in service, by kind: core, bank (die x 512 + bank), slice, HBM channel, lane. -/
def State.mayFence (s : State) (kind idx : Nat) : Bool :=
  let f := s.hours.fenced
  let worn := decide (4 ≤ s.errorsIn kind idx (3600 * oneSecond))
  match kind with
  | 0 => worn && decide (idx < Config.cores) && !f.cores.contains idx
  | 1 => worn && decide (idx < 512 * Config.dies) && !f.banks.contains (idx / 512, idx % 512)
  | 2 => worn && decide (idx < 128) && !f.slices.contains idx
  | 3 => worn && decide (idx < 384) && !f.channels.contains idx
  | 4 => decide (1000 < s.errorsIn 4 idx oneSecond) && !f.lanes.contains idx
  | _ => false

/-- UNIT_FENCE. -/
def execUnitFence (kind idx : Nat) (s : State) : Host.Outcome State Fault Refusal :=
  if !s.mayFence kind idx then .next s
  else
    let s := match kind with
      | 0 => s.fenceCore idx
      | 1 => s.fenceBank (idx / 512) (idx % 512)
      | 2 => s.fenceSlice idx
      | 3 => s.fenceChannel idx
      | _ => s.fenceLane idx
    .next s.bumpGen.dropUnplaceable

/-! ### Soft errors and scrubbing, as steps (R387 to R389) -/

/-- An uncorrectable copy of an L2 tag: the other copy is read, and where that one cannot be corrected either the die is fenced (R388). -/
def State.tagError (s : State) (die line : Nat) : State :=
  if s.hours.poison.contains (.tag die line) then (s.countUncorrected 6).fenceDie die 6
  else
    let at_ := s.softPlace 6 die (32 * line)
    (s.addPoison (.tag die line)).corrected 6 at_.1 at_.2 (256 * line)

/-- SOFT_ERROR: a word takes an error that SECDED corrects, or one that poisons it. -/
def execSoftError (unit owner word : Nat) (uncorrectable : Bool) (s : State) : Host.Outcome State Fault Refusal :=
  if !errorExists unit owner word then .next s
  else if !uncorrectable then
    let p := s.softPlace unit owner word
    .next (s.corrected unit p.1 p.2 (if 4 ≤ unit && unit ≤ 8 then 8 * word else 0))
  else
    let s := match s.unitOf unit owner word with
      | some (k, i) => s.noteError k i (3600 * oneSecond)
      | none => s
    match unit with
    | 1 => .next (s.poisonReg owner word)
    | 2 => .next (s.addPoison (.scratch owner word))
    | 3 => .next (s.addPoison (.const owner word))
    | 4 => .next (s.addPoison (.tile owner word))
    | 5 => .next (s.poisonL2 owner word)
    | 6 => .next (s.tagError owner (word / 32))
    | 13 => .next (s.poisonLogic owner word)
    | _ => .next (s.addPoison (.far word))

/-- The poison that a scrub of an array's word would meet. -/
def scrubbed (unit owner word : Nat) : Option PoisonAt :=
  match unit with
  | 4 => some (.tile owner word)
  | 5 => some (.l2 owner word)
  | 7 | 8 => some (.far word)
  | _ => none

/-- PATROL_SCRUB: a poisoned word gives an error record, and no task is contained; a tag is rewritten from its good copy (R387, R388, R390). -/
def execPatrolScrub (unit owner word : Nat) (s : State) : Host.Outcome State Fault Refusal :=
  if unit = 6 then .next { s with hours := { s.hours with poison := s.hours.poison.filter (· != .tag owner (word / 32)) } }
  else match scrubbed unit owner word with
  | none => .next s
  | some x =>
    if !s.hours.poison.contains x then .next s
    else
      let p := s.softPlace unit owner word
      .next ((s.countUncorrected unit).recordError
        { cls := 3, unit := unit, die := p.1, ctx := 0, index := p.2, addr := 8 * word % 2 ^ 48, task := 0, action := 0 })

/-! ### Resets (R410) -/

/-- STATUS after a bring-up that failed at a step, or succeeded (R410). -/
def bringUpStatus (failed : Nat) : Nat := if failed = 0 then 1 else failed * 256

/-- The keystone after a reset: every key is destroyed, a fresh attestation key made, and a staged image applied (R405 to R408). -/
def Keystone.restart (k : Keystone) (good : Bool) : Keystone :=
  let applied := good && k.staged.isSome
  { Keystone.reset with
    nonces := k.nonces, attest := k.attest + 1, firmware := if applied then k.firmware + 1 else k.firmware,
    secver := if applied then max k.secver (Config.imageVersion (k.staged.getD [])) else k.secver }

/-- A package reset: the state of reset, with the repair record applied; what is to come from outside still comes. -/
def State.restart (s : State) : State :=
  let failed := Config.bringUpFails s.tick % 7
  { State.reset with
    keystone := s.keystone.restart (failed == 0), coming := s.coming, tick := s.tick,
    hours := { Hours.reset with fenced := s.hours.fenced, status := bringUpStatus failed } }

/-- COLD_RESET. -/
def execColdReset (s : State) : Host.Outcome State Fault Refusal := .next s.restart

/-- WARM_RESET. -/
def execWarmReset (s : State) : Host.Outcome State Fault Refusal := .next s.restart

/-! ### Power (R411) -/

/-- Whether a team is bound. -/
def State.teamBound (s : State) : Bool := s.cores.any (fun c => !c.2.teams.isEmpty || c.2.binds.any (fun b => b.2.getLsbD 0))

/-- Whether a command is in flight. -/
def State.commandInFlight (s : State) : Bool :=
  s.cores.any (fun c => !c.2.hod.cmds.isEmpty || c.2.hod.flight.any (fun f => !f.done) || !c.2.hod.inbox.isEmpty || !c.2.hod.inboxRun.isEmpty)

/-- P3 holds only the keystone and the GCL. -/
def State.powerDown (s : State) : State :=
  { State.reset with
    keystone := s.keystone, coming := s.coming, tick := s.tick, ns := s.ns,
    dies := s.dies.map (fun (e : Nat × Die) => (e.1, { Die.reset with state := e.2.state, fences := e.2.fences, clock := e.2.clock, temp := e.2.temp })),
    host := { HostSide.reset with sessions := s.host.sessions, responses := s.host.responses, windows := s.host.windows, netOut := s.host.netOut },
    hours := { s.hours with poison := [], contained := [], lostPages := [], power := .p3, powerIgnored := false } }

/-- A request for a power state: 0 ends P2 or P3, 2 and 3 enter them where their condition holds (R411). -/
def State.requestPower (s : State) (state : Nat) : State :=
  let put := fun (s : State) (p : Power) => { s with hours := { s.hours with power := p, powerIgnored := false } }
  let refuse := { s with hours := { s.hours with powerIgnored := true } }
  match state with
  | 0 => if s.hours.power = .p3 then
      let s := put s .p0
      { s with hours := { s.hours with status := bringUpStatus (let k := Config.bringUpFails s.tick % 7; if k < 3 then 0 else k) } }
    else put s .p0
  | 2 => if s.hours.power = .p3 then s else if s.teamBound then refuse else put s .p2
  | 3 => if s.ctxs.any (fun e => e.2.state == .live) then refuse else s.powerDown
  | _ => s

/-- POWER_STATE_REQUEST. -/
def execPowerStateRequest (session state : Nat) (s : State) : Host.Outcome State Fault Refusal :=
  if (s.host.sessions.find session).isNone then .next s else .next (s.requestPower state)

/-- P1_ENTRY: no team is bound and no command in flight. -/
def execP1Entry (s : State) : Host.Outcome State Fault Refusal :=
  if s.hours.power ≠ .p0 || s.teamBound || s.commandInFlight then .next s
  else .next { s with hours := { s.hours with power := .p1 } }

/-- P1_EXIT. -/
def execP1Exit (s : State) : Host.Outcome State Fault Refusal := .next s.wakeUp

/-- A write to POWERCAP, from 1,000 to 2,800 W (R412); its width and that other values are ignored are the model's (log 91). -/
def State.writePowercap (s : State) (v : Nat) : State :=
  if 1000 ≤ v && v ≤ 2800 then { s with hours := { s.hours with powercap := v } } else s

/-- POWERCAP. -/
def execPowercap (session val : Nat) (s : State) : Host.Outcome State Fault Refusal :=
  if (s.host.sessions.find session).isNone then .next s else .next (s.writePowercap val)

/-! ### Cooling (R412) -/

/-- THERMAL_STEP: a die's junction has a temperature, in tenths of a degree; its clock, in MHz, follows by one step. -/
def execThermalStep (die temp : Nat) (s : State) : Host.Outcome State Fault Refusal :=
  if Config.dies ≤ die then .next s
  else .next (s.modDie die (fun d =>
    { d with temp := temp,
             clock := if 1000 ≤ temp then max 2000 (d.clock - 250) else if temp < 950 then min 4000 (d.clock + 250) else d.clock }))

/-- THERMAL_SHUTDOWN: at 115 degrees on some die every context is torn down and the package enters P3. -/
def execThermalShutdown (s : State) : Host.Outcome State Fault Refusal :=
  if !(List.range Config.dies).any (fun d => decide (1150 ≤ (s.die d).temp)) then .next s
  else .next (((s.ctxs.filter (fun e => e.2.state != .free)).map (·.1)).foldl State.tearDown s).powerDown

end Sys2Proof.Machine
end

