-- ==== Sys2Proof/Machine/HostLink.lean ====
section
/-!
DEFINITION. HostLink: the GCL's sessions and requests (R349 to R351), and writes of the device register space (R6, R350, R414).
-/

namespace Sys2Proof.Machine

/-! ### Register writes -/

/-- The session's own write to an entry of a hod's queue table: the owner checks of R350, then R217. -/
def State.hostHodQ (s : State) (session core q v : Nat) : State :=
  let e := (s.core core).hod.entry q
  let ctx := bitsOf v 8 8
  if s.ownerBad session e.en e.ctx ctx || (v.testBit 0 && !s.mayName session ctx) then s.notOwner session (hodAt core + 16 * q)
  else s.writeHodQ core q v

/-- CTRL of a command's record: 1 resumes a held command and 2 abandons it (R245, R246). -/
def State.writeCtrl (s : State) (session core slot v : Nat) : State :=
  match s.cmd core slot with
  | none => s
  | some k =>
    if !s.owns session k.ctx then s.notOwner session (hodAt core + 0x1000 + 128 * slot)
    else if !k.isHeld then s
    else match bitsOf v 832 2 with
      | 1 => s.resume core slot
      | 2 => s.abandon core slot
      | _ => s

/-- A write to die control: bit 32 asks for the re-admission of a Retired die (R397). -/
def State.writeDie (s : State) (d v : Nat) : State :=
  if v.testBit 32 && (s.die d).state == .retired then s.modDie d (fun x => { x with state := .testing }) else s

/-- A write to an object of the register space; read-only ones ignore it (R6). -/
def State.writeObj (s : State) (session v : Nat) : RegObj → State
  | .keyBox => s.writeKeyBox session v
  | .param i => s.writeParam session i v
  | .launchQ q => s.writeLaunchQ session q v
  | .box => s.writeBox session v
  | .window w => s.writeWindow session w v
  | .sendQ q => s.writeSendQ session q v
  | .recvQ q => s.writeRecvQ session q v
  | .peer c j => s.writePeer session c j v
  | .reset => if v = 0x5259 then s.restart else s
  | .power => s.requestPower (v % 4)
  | .powercap => s.writePowercap v
  | .dieControl d => s.writeDie d v
  | .hodQ core q => s.hostHodQ session core q v
  | .hodCmd core slot => s.writeCtrl session core slot v
  | .status | .cap _ | .loghead | .logRecord _ | .ctxEntry _ | .region _ _ | .telemetry _ | .bindRecord _ _ => s

/-- An object's value with the written bytes in the place of its own; what a write command left reads zero. -/
def State.mergedValue (s : State) (session : Nat) (x : RegObj) (base size o : Nat) (bs : List Byte) : Nat :=
  let old := s.regValue session x
  numLE ((List.range size).map (fun i =>
    if o ≤ base + i ∧ base + i < o + bs.length then bs.getD (base + i - o) 0 else BitVec.ofNat 8 (old / 256 ^ i)))

/-- The bytes of an object of the register space that a write can change; the rest of it is reserved or read-only (R6). The reset register and POWERCAP
take all of their 8 bytes (log 91). -/
def RegObj.writable : RegObj → Nat → Bool
  | .keyBox, i | .box, i => decide (i < 3) || (decide (8 ≤ i) && decide (i ≤ 32))
  | .param k, i => decide (1 ≤ k) && decide (k ≤ 6) && decide (i < [0, 3, 2, 1, 3, 2, 3].getD k 0)
  | .launchQ _, i => decide (i < 2) || (decide (8 ≤ i) && decide (i < 14)) || i == 16
  | .window _, i => decide (i < 2) || (decide (8 ≤ i) && decide (i < 12))
  | .sendQ _, i => decide (i < 12)
  | .recvQ _, i => decide (i < 7) || (decide (8 ≤ i) && decide (i < 14)) || (decide (16 ≤ i) && decide (i < 22))
  | .peer _ _, _ => true
  | .reset, _ | .powercap, _ => true
  | .power, i => i == 0
  | .dieControl _, i => i == 4
  | .hodQ _ q, i => q != 0 && (decide (i < 3) || (decide (8 ≤ i) && decide (i < 14)))
  | .hodCmd _ _, i => i == 104
  | .status, _ | .cap _, _ | .loghead, _ | .logRecord _, _ | .ctxEntry _, _ | .region _ _, _ | .telemetry _, _ | .bindRecord _ _, _ => false

/-- What still takes writes in P3, where only the keystone and the GCL are held (R411). -/
def RegObj.inP3 : RegObj → Bool
  | .keyBox | .window _ | .reset | .power | .powercap => true
  | _ => false

/-- A write of n bytes from o on of an object. One that leaves the CTX byte of a window's descriptor alone, where none has been named yet, names no
context and is checked for none (R351, log 56). -/
def State.writePart (s : State) (session v base o n : Nat) : RegObj → State
  | .window w =>
    if (Table.get Window.reset s.host.windows w).ctx = 0 ∧ ¬ (o ≤ base + 1 ∧ base + 1 < o + n) then s.setWindow w (Window.ofValue v)
    else s.writeWindow session w v
  | x => s.writeObj session v x

/-- Writes bytes of the register space: each object of which they reach a byte that can be written takes one write. -/
def State.regWrite (s : State) (session o : Nat) (bs : List Byte) : State :=
  let objs := ((List.range bs.length).filterMap (fun i => (regObj (o + i)).filter (fun x => x.1.writable (o + i - x.2.1)))).eraseDups
  (objs.filter (fun x => s.hours.power != .p3 || x.1.inP3)).foldl (fun s x =>
    s.writePart session (s.mergedValue session x.1 x.2.1 x.2.2 o bs) x.2.1 o bs.length x.1) s

/-- REGISTER_WRITE: one write of 8 bytes by a session. -/
def execRegisterWrite (session addr val : Nat) (s : State) : Host.Outcome State Fault Refusal :=
  if (s.host.sessions.find session).isNone then .next s else .next (s.wakeUp.regWrite session addr (bytesLE val 8))

/-! ### Sessions (R349) -/

/-- GCL_SESSION_OPEN: the control node opens a session with an owner id, once the GCL is up; sessions are numbered in order. -/
def execGclSessionOpen (owner : Nat) (s : State) : Host.Outcome State Fault Refusal :=
  let n := s.host.sessions.length
  if !s.hours.status.testBit 0 then .next s
  else .next { s with host := { s.host with sessions := s.host.sessions.insert n { owner := owner % 2 ^ 16, events := [], lost := 0, seq := 0 } } }

/-! ### Requests (R350, R351) -/

/-- Whether a session has a channel. -/
def State.hasChannel (s : State) (session ch : Nat) : Bool := (s.host.sessions.find session).isSome && decide (ch < 64)

/-- Sends the response of a request. -/
def State.respond (s : State) (session ch : Nat) (st : GclStatus) (data : List Byte) : State :=
  { s with host := { s.host with responses := s.host.responses ++ [{ session := session, ch := ch, status := st, data := data }] } }

/-- What a GCL address reaches. -/
inductive GclPlace where
  | register (o : Nat)
  | window (ctx va : Nat)
  | nothing
  deriving DecidableEq, Repr

/-- The place of a GCL address; a window that is closed, or whose context is not live, reaches nothing. -/
def State.gclPlace (s : State) (addr : Nat) : GclPlace :=
  if addr < 0x2000000 then .register addr
  else if 0x4000000000 ≤ addr && addr < 0x4000000000 + 64 * 2 ^ 30 then
    let w := Table.get Window.reset s.host.windows ((addr - 0x4000000000) / 2 ^ 30)
    if w.en && s.live w.ctx then .window w.ctx (w.base * 2 ^ 16 + addr % 2 ^ 30) else .nothing
  else .nothing

/-- Sizes of a read or a write. -/
def gclSizeOk (addr n : Nat) : Bool := [1, 2, 4, 8, 16, 32, 64].contains n && addr % n == 0

/-- The response to an access of device memory, with whether it has been performed. -/
def HostGot.answer (session ch n : Nat) (returns : Bool) (g : HostGot) : State × Bool :=
  match g with
  | .ok s v => (s.respond session ch .ok (if returns then bytesLE v n else []), true)
  | .refused s st v => (s.respond session ch st (if returns then bytesLE v n else []), true)
  | .wait s => (s, false)

/-- Performs a request, with whether it has been performed: one that waits stays at the head of its channel. -/
def State.serve (s : State) (q : GclReq) : State × Bool :=
  let done := fun (s : State) (st : GclStatus) (bs : List Byte) => (s.respond q.session q.ch st bs, true)
  match q.kind with
  | .read addr len =>
    if !gclSizeOk addr len then done s .badsize []
    else match s.gclPlace addr with
      | .nothing => done s .badaddr []
      | .register o => done s .ok (s.regRead q.session o len)
      | .window ctx va => HostGot.answer q.session q.ch len true (hostRead s ctx va len)
  | .write addr data =>
    if !gclSizeOk addr data.length then done s .badsize []
    else match s.gclPlace addr with
      | .nothing => done s .badaddr []
      | .register o => done (s.regWrite q.session o data) .ok []
      | .window ctx va => HostGot.answer q.session q.ch data.length false (hostWrite s ctx va (numLE data) data.length 0)
  | .atomic addr op size operand comparand =>
    if size ≠ 8 || addr % 8 ≠ 0 then done s .badsize []
    else match s.gclPlace addr with
      | .nothing => done s .badaddr []
      | .register _ => done s .badsize []
      | .window ctx va =>
        HostGot.answer q.session q.ch 8 true (hostAtomic s ctx va 8 0 { op := op, type := 0, operand := operand % 2 ^ 64, comparand := comparand % 2 ^ 64 })
  | .fence => done s .ok []

/-- Whether two requests use one channel. -/
def GclReq.sameChannel (p q : GclReq) : Bool := p.session == q.session && p.ch == q.ch

/-- The requests that wait are performed as far as they can be, each once the earlier ones of its channel have been. -/
def State.serveChannels (s : State) : State :=
  if s.host.waiting.isEmpty then s
  else
    let r := s.host.waiting.foldl (fun (a : State × List GclReq) q =>
      if a.2.any (·.sameChannel q) then (a.1, a.2 ++ [q])
      else
        let d := a.1.serve q
        if d.2 then (d.1, a.2) else (d.1, a.2 ++ [q])) ({ s with host := { s.host with waiting := [] } }, [])
    { r.1 with host := { r.1.host with waiting := r.2 } }

/-- A request arrives on its channel: it is performed, or waits behind what it waits for. -/
def State.request (s0 : State) (q : GclReq) : State :=
  if !s0.hasChannel q.session q.ch then s0
  else
    let s := s0.wakeUp
    let held := fun (s : State) => { s with host := { s.host with waiting := s.host.waiting ++ [q] } }
    if s.host.waiting.any (·.sameChannel q) then held s
    else
      let d := s.serve q
      if d.2 then d.1 else held d.1

/-- What follows each step of another agent: sessions accept events, and requests that waited go on (R350, R353). -/
def State.settle (s : State) : State := s.acceptEvents.serveChannels

/-- GCL_READ. -/
def execGclRead (session ch addr len : Nat) (s : State) : Host.Outcome State Fault Refusal :=
  .next (s.request { session := session, ch := ch, kind := .read addr len })

/-- GCL_WRITE. -/
def execGclWrite (session ch addr : Nat) (data : Bytes) (s : State) : Host.Outcome State Fault Refusal :=
  .next (s.request { session := session, ch := ch, kind := .write addr data })

/-- The combining codes of a GCL atomic (R350): add, natural max, exchange and compare-and-swap. -/
def gclAtomicOk (op : Nat) : Bool := [1, 3, 7, 8].contains op

/-- GCL_ATOMIC. -/
def execGclAtomic (session ch addr op size operand comparand : Nat) (s : State) : Host.Outcome State Fault Refusal :=
  .next (if gclAtomicOk op then s.request { session := session, ch := ch, kind := .atomic addr op size operand comparand } else s)

/-- GCL_FENCE: it responds once every earlier request of the channel has been performed. -/
def execGclFence (session ch : Nat) (s : State) : Host.Outcome State Fault Refusal :=
  .next (s.request { session := session, ch := ch, kind := .fence })

end Sys2Proof.Machine
end

