-- ==== Sys2Proof/Machine/Engine.lean ====
section
/-!
DEFINITION. Engine: the arithmetic of the matrix engine: fragments and accumulator tiles (R125 to R128, R141, R142),
the sums of R45 to R47, and what each lane of a member receives from an operation (R137, R144, R149).
-/

namespace Sys2Proof.Machine

/-! ### Sums (R45 to R47) -/

/-- A value with the flags of forming it. -/
abbrev Flagged := Exact × FFlags

/-- Rounding inside the engine: RNE, no saturation, no flush (R45, R138). -/
def rneMode : Rounding := { rm := 0, sat := false, ftz := false, rnd := 0, srcUnit := none }

/-- The flags that the engine raises (R138): IV and OF of the steps; NF is of the result alone. -/
def stepFlags (fl : FFlags) : FFlags := fl &&& (flagIV ||| flagOF)

/-- An operand read without flush; a signalling NaN raises IV (R35). -/
def engineRead (f : Fmt) (b : Nat) : Flagged := ((f.read false b).1.toExact, (f.read false b).2)

/-- An exact product of two operands. -/
def engineMul (x y : Flagged) : Flagged := ((exactMul x.1 y.1).1, x.2 ||| y.2 ||| (exactMul x.1 y.1).2)

/-- Whether an exact value is an infinity of a sign. -/
def isInf (neg : Bool) (v : Flagged) : Bool := v.1 == Exact.inf neg

/-- The block sum over the kept leaves (R46, R47); none when every leaf is skipped. -/
def blockSum (leaves : List (Option Flagged)) : Option Flagged :=
  match leaves.filterMap id with
  | [] => none
  | v :: vs =>
    let all := v :: vs
    let fl := all.foldl (fun f x => f ||| x.2) 0
    let clash := all.any (isInf true) && all.any (isInf false)
    let fl := if clash then fl ||| flagIV else fl
    some ((if clash then .nan else vs.foldl (fun acc x => (exactAdd false acc x.1).1) v.1), fl)

/-- One block added into the accumulator: two roundings (R45). -/
def accumulate (T : Fmt) (acc : Nat × FFlags) (v : Flagged) : Nat × FFlags :=
  let r := T.round rneMode v.1
  let x := exactAdd false (T.decode acc.1).toExact (T.decode r.1).toExact
  let a := T.round rneMode x.1
  (a.1, acc.2 ||| stepFlags (v.2 ||| r.2 ||| x.2 ||| a.2))

/-- A scale as a factor (R34); a NaN scale makes the block NaN. -/
def scaleValue (b : Nat) : Flagged :=
  match s12Value b with
  | some (n, e) => (.rat false n 1 e, 0)
  | none => (.nan, 0)

/-- A block as the engine sums it: its leaves and its scales; none for an unscaled type. -/
structure ScaledBlock where
  leaves : List (Option Flagged)
  scale : Option (Nat × Nat)

/-- One output element (R45): the accumulator input, then each block in ascending order; the result is canonical. -/
def formElement (T : Fmt) (d : Nat) (blocks : List ScaledBlock) : Nat × FFlags :=
  let d0 := engineRead T d
  let r := blocks.foldl (fun acc b =>
    match blockSum b.leaves with
    | none => acc
    | some v =>
      let v := match b.scale with
        | none => v
        | some s => engineMul (engineMul v (scaleValue s.1)) (scaleValue s.2)
      accumulate T acc v) ((T.round rneMode d0.1).1, stepFlags d0.2)
  (r.1, r.2 ||| T.nfFlag r.1)

/-- Cuts a list into aligned blocks of n (R45); a final partial block is shorter. -/
def cutBlocks {α : Type} (n : Nat) : Nat → List α → List (List α)
  | 0, _ => []
  | _, [] => []
  | k + 1, l => l.take n :: cutBlocks n k (l.drop n)

/-! ### Tiles (R125 to R128, R141, R142) -/

/-- Input elements of a register (R125). -/
def perReg (t : Nat) : Nat := 64 / max (typeWidth (BitVec.ofNat 4 t)) 1

/-- The accumulator format of an input type (R125, R136); none for INT32. -/
def accFmt (t : Nat) : Option Fmt := if t = 11 ∨ t = 12 then none else if t = 1 then some .fp64 else some .fp32

/-- Element i of a list of registers that hold E elements each. -/
def fragEl (E : Nat) (rs : List Word) (c : Nat) : Nat := el (64 / E) (rs.getD (c / E) 0) (c % E)

/-- The lane and the index within it of position k along the reduction, `half` positions to a lane (R126, R142). -/
def alongK (row k half : Nat) : Nat × Nat := (row + 16 * (k / half), k % half)

/-- The kept value of an MMAS lane at its local position p; none where it is dropped (R141). -/
def keptValue (E pat : Nat) (rs : List Word) (p : Nat) : Option Nat :=
  if pat = 0 then
    let g := p / 4
    let nib := (rs.getD (4 + g / 16) 0).toNat / 2 ^ (4 * (g % 16)) % 16
    let i0 := nib % 4
    let i1 := nib / 4
    if i1 ≤ i0 then none
    else if p % 4 = i0 then some (fragEl E rs (2 * g))
    else if p % 4 = i1 then some (fragEl E rs (2 * g + 1))
    else none
  else
    let g := p / 2
    let bit := (rs.getD 4 0).toNat / 2 ^ g % 2
    if p % 2 = bit then some (fragEl E rs g) else none

/-- The A element at row m and dense position k (R126, R141). -/
def aElement (E : Nat) (sparse : Option Nat) (a : Table (List Word)) (m k : Nat) : Option Nat :=
  match sparse with
  | none =>
    let p := alongK m k (4 * E)
    (a.find p.1).map (fun rs => fragEl E rs p.2)
  | some pat =>
    let p := alongK m k (8 * E)
    (a.find p.1).bind (fun rs => keptValue E pat rs p.2)

/-- The scale of a row's or column's block (R128). -/
def tileScale (Kd : Nat) (ss : Table Word) (row blk : Nat) : Nat :=
  let per := Kd / 64
  el 12 (Table.get 0 ss (row + 16 * (blk / per))) (blk % per)

/-- The place of sub-element i of register j of an accumulator lane: row and column (R127). -/
def accPlace (fp64 : Bool) (lane j i : Nat) : Nat × Nat := (lane % 16, lane / 16 * 8 + (if fp64 then j else 2 * j + i))

/-- The element of a tile at row m and column n, from the registers of its lanes (R127). -/
def tileElement (fp64 : Bool) (x : Table (List Word)) (m n : Nat) : Option Nat :=
  let lane := m + 16 * (n / 8)
  (x.find lane).map (fun rs => if fp64 then (rs.getD (n % 8) 0).toNat else el 32 (rs.getD (n % 8 / 2) 0) (n % 2))

/-! ### Results -/

/-- The value of a source; one that has not been forwarded reads zero, which the queue's order rules out. -/
def AccSrc.value : AccSrc → Word
  | .val v => v
  | .fwd .. => 0

/-- A register of a lane's destinations: each active sub-element formed by `f` (R14), the others as they were; with the
flags, and whether one is non-finite. -/
def destReg (fp64 : Bool) (guard : Byte) (old : Word) (f : Nat → Nat × FFlags) : Word × FFlags :=
  let S := if fp64 then 1 else 2
  (activeEls S guard).foldl (fun acc i => (setEl (64 / S) acc.1 i (f i).1, acc.2 ||| (f i).2)) (old, 0)

/-- What a lane receives when `f` forms the element in register j, sub-element i, from the accumulator input. -/
def MatLane.receive (l : MatLane) (grp : Nat) (fp64 isFloat : Bool) (z : Bool) (nz : Nat) (f : Nat → Nat → Nat → Nat × FFlags) :
    MatResult :=
  let rs := l.arr.dRegs.zipIdx.map (fun e =>
    let j := e.2
    let din := ((l.arr.d[j]?).map AccSrc.value).getD 0
    let v := destReg fp64 l.arr.guard (l.arr.dOld.getD j 0) (fun i =>
      f j i (if z then nz else if fp64 then din.toNat else el 32 din i))
    (e.1, v.1, v.2))
  let fl := rs.foldl (fun a r => a ||| r.2.2) 0
  { grp := grp, lane := l.lane, regs := rs.map (fun r => (r.1, r.2.1)), flags := fl, bad := isFloat && fl &&& flagNF != 0 }

/-- Registers that the lanes of a member supplied. -/
def MatMember.supply (m : MatMember) (f : Arrival → List Word) : Table (List Word) := m.lanes.map (fun l => (l.lane, f l.arr))

/-- −0 of an accumulator format; integers have 0. -/
def negZero : Option Fmt → Nat
  | some .fp64 => 2 ^ 63
  | some _ => 2 ^ 31
  | none => 0

/-- One element of a product (R137, R142). -/
def productElement (ta tb : Nat) (sparse : Option Nat) (sc : Bool) (a : Table (List Word)) (sa : Table Word)
    (b : Table (List Word)) (sb : Table Word) (m n din : Nat) : Nat × FFlags :=
  let E := perReg ta
  let Kd := if sparse.isSome then 16 * E else 8 * E
  let pairs := (List.range Kd).map (fun k =>
    let p := alongK n k (Kd / 2)
    match aElement E sparse a m k, b.find p.1 with
    | some x, some rs => some (x, fragEl E rs p.2)
    | _, _ => none)
  match accFmt ta, Fmt.ofCode ta, Fmt.ofCode tb with
  | some T, some fa, some fb =>
    let leaves := pairs.map (fun p => p.map (fun e => engineMul (engineRead fa e.1) (engineRead fb e.2)))
    let n0 := if ta = 1 then 8 else 32
    formElement T din ((cutBlocks n0 Kd leaves).zipIdx.map (fun e =>
      { leaves := e.1, scale := if sc then some (tileScale Kd sa m e.2, tileScale Kd sb n e.2) else none }))
  | _, _, _ =>
    let int := fun (t x : Nat) => if intSigned t then sgn 8 x else (x : Int)
    let sum := pairs.foldl (fun (acc : Int) p => acc + ((p.map (fun e => int ta e.1 * int tb e.2)).getD 0)) (din : Int)
    (wrap 32 sum, 0)

/-- One element of MTRN, MPERM and MRSUM (R144): the places of X that its kept leaves name. -/
def constElement (t : Nat) (x : Table (List Word)) (src : List (Nat × Nat)) : Nat × FFlags :=
  let xs := src.map (fun p => tileElement (t == 1) x p.1 p.2)
  match Fmt.ofCode t with
  | some T => formElement T (negZero (some T)) [{ leaves := xs.map (fun o => o.map (engineRead T)), scale := none }]
  | none => (xs.foldl (fun acc o => (acc + o.getD 0) % 2 ^ 32) 0, 0)

/-- π of MPERM (R144). -/
def permute (mode amt x : Nat) : Nat :=
  match mode with
  | 0 => 15 - x
  | 1 => (x + amt) % 16
  | _ => x ^^^ amt

/-- The places of X that output (m, n) sums (R144). -/
def constSources : Instr → Nat → Nat → List (Nat × Nat)
  | .mperm _ _ _ amt _ _ axis mode, m, n =>
    if axis == 0#1 then [(permute mode.toNat amt.toNat m, n)] else [(m, permute mode.toNat amt.toNat n)]
  | .mrsum _ _ _ _ _ axis, m, n => (List.range 16).map (fun k => if axis == 0#1 then (m, k) else (k, n))
  | _, m, n => [(n, m)]

/-- One output of MVT (R149): the weights and inputs of its K positions. -/
def vectorElement (bf16 : Bool) (ws : List Nat) (xs : List Nat) (din : Nat) : Nat × FFlags :=
  let f : Fmt := if bf16 then .bf16 else .fp32
  let leaves := (ws.zip xs).map (fun p => some (engineMul (engineRead f p.1) (engineRead .fp32 p.2)))
  formElement .fp32 din ((cutBlocks 8 leaves.length leaves).map (fun l => { leaves := l, scale := none }))

/-- A weight of MVT (R148, R150): one that a command writes meanwhile is read old or new, whole. -/
def MatOp.weight (o : MatOp) (const : Memory) (tick a size : Nat) : Nat :=
  if Config.readsOld tick 0 a then
    const.readLE a size |> fun v => (List.range size).foldl (fun v i => match o.olds.find? (fun e => e.1 = a + i) with
      | some e => v - v / 2 ^ (8 * i) % 2 ^ 8 * 2 ^ (8 * i) + e.2.toNat * 2 ^ (8 * i)
      | none => v) v
  else const.readLE a size

/-- What one member receives from an operation whose kind comes from the leader's words (R131): `const` is the core's
constant store, and `tick` picks the old or the new value of a weight that is written meanwhile (R150). -/
def MatOp.member (o : MatOp) (const : Memory) (tick : Nat) (m : MatMember) : List MatResult :=
  let b := m.supply (fun a => a.b.map AccSrc.value)
  let sb : Table Word := m.lanes.map (fun l => (l.lane, l.arr.sb))
  let product := fun (ta tb : Nat) (sparse : Option Nat) (sc z : Bool) =>
    m.lanes.map (fun l => l.receive m.grp (ta == 1) ((accFmt ta).isSome) z (negZero (accFmt ta)) (fun j i din =>
      let p := accPlace (ta == 1) l.lane j i
      productElement ta tb sparse sc o.a o.sa b sb p.1 p.2 din))
  let constant := fun (t : Nat) =>
    m.lanes.map (fun l => l.receive m.grp (t == 1) ((Fmt.ofCode t).isSome) true 0 (fun j i _ =>
      let p := accPlace (t == 1) l.lane j i
      constElement t b (constSources o.leader p.1 p.2)))
  match o.leader with
  | .mma _ _ _ _ sc z _ _ _ ta tb => product ta.toNat tb.toNat none (sc == 1#1) (z == 1#1)
  | .mmas _ _ _ _ sc z _ _ _ ta tb pat => product ta.toNat tb.toNat (some pat.toNat) (sc == 1#1) (z == 1#1)
  | .mtrn _ _ _ _ t | .mperm _ _ _ _ _ t _ _ | .mrsum _ _ _ _ t _ => constant t.toNat
  | .mvt _ _ _ _ bfw z mm kk _ =>
    let K := kk.toNat + 1
    let size := if bfw == 1#1 then 2 else 4
    m.lanes.map (fun l => l.receive m.grp false true (z == 1#1) (2 ^ 31) (fun j i din =>
      let row := 2 * j + i
      if mm.toNat < row then (el 32 (l.arr.dOld.getD j 0) i, 0)
      else
        let base := o.constBase + l.arr.sa.toNat + row * K * size
        vectorElement (bfw == 1#1) ((List.range K).map (fun k => o.weight const tick (base + k * size) size))
          ((List.range K).map (fun k => el 32 (l.arr.a.getD (k / 2) 0) (k % 2))) din))
  | _ => []

/-- What every member receives. -/
def MatOp.compute (o : MatOp) (const : Memory) (tick : Nat) : List MatResult := o.members.flatMap (o.member const tick)

/-- The value that a lane receives in a register. -/
def MatResult.reg (r : MatResult) (x : Nat) : Option Word := (r.regs.find? (fun e => e.1 = x)).map (·.2)

/-- A source with the values that an executed operation forwards to its own thread (R152). -/
def AccSrc.patch (pend : Nat) (r : MatResult) : AccSrc → AccSrc
  | .fwd p x => if p = pend then ((r.reg x).map AccSrc.val).getD (.fwd p x) else .fwd p x
  | s => s

/-- An arrival with the values that an operation forwards. -/
def Arrival.patch (a : Arrival) (pend : Nat) (r : MatResult) : Arrival :=
  { a with b := a.b.map (AccSrc.patch pend r), d := a.d.map (AccSrc.patch pend r) }

/-- An operation with forwarded values. -/
def MatOp.patch (o : MatOp) (tr : Nat) (pend : Nat) (r : MatResult) : MatOp :=
  if o.tr != tr then o
  else { o with members := o.members.map (fun m =>
    if m.grp != r.grp then m
    else { m with lanes := m.lanes.map (fun l => if l.lane = r.lane then { l with arr := l.arr.patch pend r } else l) }) }

/-- A thread with forwarded values: what it supplied at an arrival that is still open, and its own pending write. -/
def Thread.patch (th : Thread) (pend : Nat) (r : MatResult) : Thread :=
  let th := { th with pend := th.pend.map (fun (p : Pending) => if p.id = pend && p.matrix then
    { p with regs := p.regs.map (fun (e : Nat × Option Word) =>
        (e.1, (r.reg e.1).or e.2)) } else p) }
  match th.status with
  | .wait (.matrix a) => { th with status := .wait (.matrix (a.patch pend r)) }
  | _ => th

end Sys2Proof.Machine
end

