-- ==== Sys2Proof/Machine/Matrix.lean ====
section
/-!
DEFINITION. Matrix: the majors MMA, MMAS, MCON and MVT (R129 to R149), the ownership token (R145, R146), and the
engine's steps MATRIX_OP_READY, MTOK_TAKES_EFFECT, ENGINE_EXECUTE and MATRIX_RESULT_LANDS (R129, R151 to R153).
-/

namespace Sys2Proof.Machine

/-! ### Shared operations -/

/-- Whether the engine queue has a free entry. -/
def State.engineRoom (s : State) (c : Nat) : Bool := decide (s.engineLoad c < engineSlots)

/-- Whether an operation may enter the queue at once: there is room, and no other has become ready before it (R151). -/
def State.engineFree (s : State) (c : Nat) : Bool := s.engineRoom c && (s.readyOps c).isEmpty

/-- Whether one more operation keeps the counter at 256 or below (R27). -/
def Group.canPost (g : Group) : Bool := decide (g.counters.getD 3 0 < 256)

/-- The lookahead of an instruction. -/
def aheadOf (i : Instr) : Nat := (lookahead i).getD 0

/-- The fields of a word that R131 compares: D, B, LA and SB may differ. -/
def matrixWord : Instr → Instr
  | .mma _ a _ _ sc z sa _ cv ta tb => .mma 0 a 0 0 sc z sa 0 cv ta tb
  | .mmas _ a _ _ sc z sa _ cv ta tb pat => .mmas 0 a 0 0 sc z sa 0 cv ta tb pat
  | .mtrn _ _ _ cv t => .mtrn 0 0 0 cv t
  | .mperm _ _ _ amt cv t axis mode => .mperm 0 0 0 amt cv t axis mode
  | .mrsum _ _ _ cv t axis => .mrsum 0 0 0 cv t axis
  | i => i

/-- Whether two arrivals' words agree (R131); an absent prefix compares as one that keeps every mode. -/
def Arrival.agrees (a b : Arrival) : Bool :=
  matrixWord a.instr == matrixWord b.instr && a.sat == b.sat && a.ftz == b.ftz && a.rnd == b.rnd

/-- The arithmetic prefix's SAT, FTZ and RND bits; without a prefix those that keep every mode (R75). -/
def prefixBits : Option Pfx → BitVec 1 × BitVec 1 × BitVec 3
  | some (.arith _ _ rnd sat ftz _) => (sat, ftz, rnd)
  | _ => (0, 0, 6)

/-- A register as an operation takes it by forwarding (R152): the new value of a pending matrix result where R68 or R70
would give or permit it, known or still to come. -/
def Thread.source (th : Thread) (r : Nat) : AccSrc :=
  match th.pend.reverse.find? (fun p => p.matrix && p.regs.any (·.1 = r)) with
  | none => .val (th.reg r)
  | some p =>
    if p.rule [r] [] == .old then .val (th.reg r)
    else match (p.regs.find? (·.1 = r)).bind (·.2) with
      | some v => .val v
      | none => .fwd p.id r

/-- What a sub-element of a destination keeps where the word leaves it inactive (R69): the register's value, or the landed one that stands
beside it in its window. -/
def Thread.keeps (th : Thread) (r : Nat) : Word :=
  match th.pend.reverse.find? (fun p => p.landed && p.regs.any (·.1 = r)) with
  | none => th.reg r
  | some p => ((p.regs.find? (·.1 = r)).bind (·.2)).getD (th.reg r)

/-- The registers that a matrix word's operands name: A, B, accumulator input and destinations. -/
def matrixFields : Instr → List Nat × List Nat × List Nat × List Nat
  | .mma d a b _ _ z _ _ _ ta _ =>
    (fieldRange a 4, fieldRange b 4, if z == 1#1 then [] else fieldRange d (tileRegs ta), fieldRange d (tileRegs ta))
  | .mmas d a b _ _ z _ _ _ ta _ pat =>
    (fieldRange a (mmasARegs ta pat), fieldRange b 8, if z == 1#1 then [] else fieldRange d 4, fieldRange d 4)
  | .mtrn d b _ _ t | .mperm d b _ _ _ t _ _ | .mrsum d b _ _ t _ => ([], fieldRange b (tileRegs t), [], fieldRange d (tileRegs t))
  | .mvt d a _ _ _ z mm kk _ =>
    let y := fieldRange d (mm.toNat / 2 + 1)
    (fieldRange a (kk.toNat / 2 + 1), [], if z == 1#1 then [] else y, y)
  | _ => ([], [], [], [])

/-- The scale registers of a scaled word. -/
def scaleRegs (th : Thread) : Instr → Word × Word
  | .mma _ _ _ _ sc _ sa sb _ _ _ | .mmas _ _ _ _ sc _ sa sb _ _ _ _ => if sc == 1#1 then (th.rd sa, th.rd sb) else (0, 0)
  | _ => (0, 0)

/-- What a lane supplies (R130). -/
def LaneCtx.arrive (c : LaneCtx) (i : Instr) (t : Turn) (post id : Nat) : Arrival :=
  let f := matrixFields i
  let sc := scaleRegs c.th i
  let ix := fun (l : List Nat) => l.map c.th.ix
  { cv := convOf i, post := post, pend := id, ipc := t.ipc, instr := i, sat := (prefixBits t.pfx).1, ftz := (prefixBits t.pfx).2.1,
    rnd := (prefixBits t.pfx).2.2, guard := c.m.guard, nft := c.m.nft, a := (ix f.1).map c.th.reg, sa := sc.1,
    b := (ix f.2.1).map c.th.source, sb := sc.2, d := (ix f.2.2.1).map c.th.source, dRegs := ix f.2.2.2,
    dOld := (ix f.2.2.2).map c.th.keeps }

/-- A pending matrix result (R67, R71). -/
def Pending.ofMatrix (id win : Nat) (regs : List Nat) (hold : Bool) : Pending :=
  { id := id, regs := regs.map (fun r => (r, none)), preds := [], win := if hold then 0 else win, inRun := true, awaited := [],
    awaitAll := false, landed := false, near := false, matrix := true, hold := hold, fp := true, fixed := false }

/-- The writes older than one are cancelled at the registers that its word names (R69). A landed one that stands in its window stays, but for one
that would outlast the landing (`lands`) of the younger. -/
def Thread.cancelOlder (th : Thread) (id : Nat) (regs : List Nat) (lands : Bool) : Thread :=
  let own := th.pend.find? (·.id = id)
  let outlasts := fun (p : Pending) => lands && !(own.any (fun o => o.inWindow && decide (p.win ≤ o.win)))
  let strip := fun (p : Pending) => if p.landed && !outlasts p then p else { p with regs := p.regs.filter (fun e => !regs.contains e.1) }
  { th with pend := ((th.pend.takeWhile (·.id != id)).map strip).filter (fun p => !p.isDone) ++ th.pend.dropWhile (·.id != id) }

/-- A thread that has issued a matrix word with results to come in `regs`: it cancels older writes once it can no longer trap (R69, R138). -/
def LaneCtx.awaitMatrix (c : LaneCtx) (i : Instr) (t : Turn) (id : Nat) (regs : List Nat) (hold : Bool) : Thread :=
  let th := c.th.advance t.len
  { th with pend := th.pend ++ [Pending.ofMatrix id (aheadOf i) regs hold] }

/-- A thread that has arrived at a matrix word. -/
def LaneCtx.issueMatrix (c : LaneCtx) (i : Instr) (t : Turn) (id : Nat) (hold : Bool) : Thread :=
  c.awaitMatrix i t id ((matrixFields i).2.2.2.map c.th.ix) hold

/-- A thread that has issued a word that enters the engine queue at once; a lane that takes no part has no result. -/
def LaneCtx.enterEngine (c : LaneCtx) (i : Instr) (t : Turn) (id : Nat) (part hold : Bool) : Thread :=
  let regs := (writeFields i).map c.th.ix
  let th := c.awaitMatrix i t id (if part then regs else []) hold
  if hold then th else { th.cancelOlder id regs false with pend := (th.cancelOlder id regs false).pend.filter (fun p => part || p.id != id) }

/-! ### Arrival (R129 to R133) -/

/-- The threads of a group that stand arrived at a convergence register, with what they supplied. -/
def Group.arrivals (g : Group) (cv : Nat) : List MatLane :=
  g.threads.zipIdx.filterMap (fun e =>
    match e.1.status with
    | .wait (.matrix a) => if a.cv = cv then some { lane := e.2, arr := a } else none
    | _ => none)

/-- A capture once some lanes have re-executed; it is dropped with the last. -/
def Team.useCapture (t : Team) (k : Capture) (lanes : List Nat) : Team :=
  let left := k.lanes.filter (fun l => !lanes.contains l)
  { t with captures := t.captures.filterMap (fun x =>
      if x = k then (if left.isEmpty then none else some { k with lanes := left }) else some x) }

/-- A re-execution (R138): for this member alone, with the captured A, scales and leader's words. -/
def reExecute (i : Instr) (s : State) (is : Issue) (k : Capture) : Host.Outcome State Fault Refusal :=
  if !s.engineFree is.t.core || !is.grp.canPost then stall s is.t.core
  else
    let hold := is.lanes.any (·.m.nft)
    let post := matrixPost s.tick
    let op : MatOp := { tr := is.t.tr, leader := k.leader, a := k.a, sa := k.sa, constBase := is.team.env.constBase, results := none, olds := [],
                        members := [{ grp := is.t.grp, post := post,
                                      lanes := is.lanes.map (fun c => { lane := c.lane, arr := c.arrive i is.t post s.tick }) }] }
    let s' := (s.modTeam is.t.core is.t.tr (fun t => (t.useCapture k is.t.lanes).modGroup is.t.grp (·.post post)))
    let s' := s'.modCore is.t.core (fun c => { c with engine := c.engine ++ [op] })
    .next (complete s' is.t (is.lanes.map (fun c => (c.lane, c.enterEngine i is.t s.tick true hold))) 1)

/-- The issue set arrives at an operation (R129, R133): each thread signs and blocks; the group's first arrival posts. -/
def arriveAll (i : Instr) (s : State) (is : Issue) (cv : Nat) (v : Cv) (writes : Bool) : State :=
  let here := is.grp.arrivals cv
  let post := ((here.head?).map (·.arr.post)).getD (matrixPost s.tick)
  let s' := if here.isEmpty then s.modGroup is.t.core is.t.tr is.t.grp (·.post post) else s
  let hold := is.lanes.any (·.m.nft)
  let s' := complete s' is.t (is.lanes.map (fun c =>
    let th := if writes then c.issueMatrix i is.t s.tick hold else c.th.issueNear i is.t none
    (c.lane, { th.sign cv v.q with status := .wait (.matrix (c.arrive i is.t post s.tick)) }))) 1
  s'.modTeam is.t.core is.t.tr (fun t => (t.cvAdvance cv).noteReady (s.coreCycles is.t.core, is.grp.slot))

/-- MMA, MMAS and MCON: a re-execution, or an arrival on the convergence register (R129 to R133, R138, R151). The prologue has taken the traps of
R131 and R132. -/
def matrixOp (i : Instr) (s : State) (writes : Bool) : Host.Outcome State Fault Refusal :=
  issue i s (fun s is =>
    let cv := convOf i
    match (if writes then is.capture else none), is.team.cvs.find cv with
    | some k, _ => reExecute i s is k
    | none, none => stall s is.t.core
    | none, some v =>
      let s' := arriveAll i s is cv v writes
      if ((is.grp.arrivals cv).isEmpty && !is.grp.canPost) || s.engineOver s' is.t.core then stall s is.t.core else .next s')

/-! ### The instructions -/

/-- MMA (R135 to R139). -/
def execMma (d a b : BitVec 7) (l : BitVec 4) (sc z : BitVec 1) (sa sb : BitVec 7) (cv : BitVec 3) (ta tb : BitVec 4) (s : State) :
    Host.Outcome State Fault Refusal :=
  matrixOp (.mma d a b l sc z sa sb cv ta tb) s true

/-- MMAS (R140 to R142). -/
def execMmas (d a b : BitVec 7) (l : BitVec 4) (sc z : BitVec 1) (sa sb : BitVec 7) (cv : BitVec 3) (ta tb : BitVec 4)
    (pat : BitVec 2) (s : State) : Host.Outcome State Fault Refusal :=
  matrixOp (.mmas d a b l sc z sa sb cv ta tb pat) s true

/-- MTRN (R143, R144). -/
def execMtrn (d b : BitVec 7) (l : BitVec 4) (cv : BitVec 3) (t : BitVec 4) (s : State) : Host.Outcome State Fault Refusal :=
  matrixOp (.mtrn d b l cv t) s true

/-- MPERM (R143, R144). -/
def execMperm (d b : BitVec 7) (l amt : BitVec 4) (cv : BitVec 3) (t : BitVec 4) (axis : BitVec 1) (mode : BitVec 2) (s : State) :
    Host.Outcome State Fault Refusal :=
  matrixOp (.mperm d b l amt cv t axis mode) s true

/-- MRSUM (R143, R144). -/
def execMrsum (d b : BitVec 7) (l : BitVec 4) (cv : BitVec 3) (t : BitVec 4) (axis : BitVec 1) (s : State) :
    Host.Outcome State Fault Refusal :=
  matrixOp (.mrsum d b l cv t axis) s true

/-- MTOK (R146): it arrives like any MCON and writes no register. -/
def execMtok (cv : BitVec 3) (rcv : BitVec 4) (s : State) : Host.Outcome State Fault Refusal := matrixOp (.mtok cv rcv) s false

/-- The weight range of a lane, or its fault kind (R148). -/
def probeWeights (c : Nat) (team : Team) (addr size unit : Nat) : Except Nat (NearUnit × Nat) :=
  if team.env.constSize < addr + size then .error 1
  else if addr % unit ≠ 0 then .error 2
  else .ok (.const c, addr)

/-- MVT (R147 to R150): the probe of R156, then an operation of this group alone. Under NFT the whole issue set awaits it, for all of it traps
(R52, R149). -/
def execMvt (d a b : BitVec 7) (l : BitVec 4) (bfw z : BitVec 1) (mm kk : BitVec 4) (off : BitVec 13) (s : State) :
    Host.Outcome State Fault Refusal :=
  let i := Instr.mvt d a b l bfw z mm kk off
  issue i s (fun s is =>
    let unit := if bfw == 1#1 then 2 else 4
    let size := (mm.toNat + 1) * (kk.toNat + 1) * unit
    let addr := fun (c : LaneCtx) => (c.th.rd b + BitVec.ofNat 64 (4 * off.toNat)).toNat
    let lanes := (is.lanes.filter (fun c => onEl c.m.guard 2 0 || onEl c.m.guard 2 1)).map (fun c =>
      (c, (c.th.rd b).toNat, probeWeights is.t.core is.team (addr c) size unit))
    probeAll s is lanes (fun s ok =>
      if !s.engineFree is.t.core || !is.grp.canPost then .wait
      else
        let hold := is.lanes.any (·.m.nft)
        let post := matrixPost s.tick
        let part := fun (c : LaneCtx) => ok.any (fun n => n.c.lane = c.lane)
        let arr := fun (c : LaneCtx) => { c.arrive i is.t post s.tick with sa := BitVec.ofNat 64 (addr c) }
        let blank := fun (a : Arrival) => { a with guard := 0, dRegs := [], d := [], dOld := [] }
        let op : MatOp := { tr := is.t.tr, leader := i, a := [], sa := [], constBase := is.team.env.constBase, results := none, olds := [],
                            members := [{ grp := is.t.grp, post := post, lanes := (is.lanes.filter (fun c => hold || part c)).map (fun c =>
                              { lane := c.lane, arr := if part c then arr c else blank (arr c) }) }] }
        let s' := s.modGroup is.t.core is.t.tr is.t.grp (·.post post)
        let s' := s'.modCore is.t.core (fun c => { c with engine := c.engine ++ [op] })
        .goes (.next (complete s' is.t (is.lanes.map (fun c => (c.lane, c.enterEngine i is.t s.tick (part c) hold))) 1))))

/-! ### Readiness (R129 to R131, R145, R146) -/

/-- The members of an operation with a thread left, by group index ascending: the first gives the words (R130). -/
def Team.matMembers (t : Team) (cv : Nat) (v : Cv) : List MatMember :=
  ((v.members.filterMap (fun m => (t.groups[m]?).map (fun g => (m, g.arrivals cv)))).filter (fun e => !e.2.isEmpty)).map (fun e =>
    { grp := e.1, post := ((e.2.head?).map (·.arr.post)).getD 0, lanes := e.2 })

/-- A thread that takes a trap at its matrix word: its own result is dropped, and the word does not count in its run. -/
def Thread.undoMatrix (th : Thread) (id : Nat) : Thread :=
  { th with pend := th.pend.filter (fun p => !(p.id == id && p.matrix)), pos := th.pos - 1, status := .run }

/-- A member's arrived threads trap together at their word; none while an older write of theirs has not landed. -/
def State.trapMember (s : State) (c r : Nat) (m : MatMember) (code : Nat) (fl : FFlags) (detail : Nat) (lanes : List Nat) :
    Option State :=
  let s := s.modGroup c r m.grp (fun g => (m.lanes.foldl (fun g l => g.modThread l.lane (·.undoMatrix l.arr.pend)) g).unpost m.post)
  let pc := ((m.lanes.head?).map (·.arr.ipc)).getD 0
  takeTrapFor s c r m.grp (m.lanes.map (·.lane)) code fl detail lanes 0 (BitVec.ofNat 64 pc)

/-- A thread released from its arrival (R129): under NFT its member issues no younger word before the result (R71); otherwise the word has
cancelled the older writes to its destinations (R69). -/
def Thread.release (th : Thread) (a : Arrival) (turns : Nat) (hold : Bool) : Thread :=
  let th := th.wake turns
  if hold then { th with pend := th.pend.map (fun p => if p.id = a.pend && p.matrix then { p with win := 0, hold := true } else p) }
  else th.cancelOlder a.pend a.dRegs false

/-- The arrived threads of a member become runnable. -/
def Group.releaseAll (g : Group) (m : MatMember) : Group :=
  let hold := m.lanes.any (·.arr.nft)
  m.lanes.foldl (fun g l => g.modThread l.lane (fun th => th.release l.arr g.turns hold)) g

/-- The convergence register begins its next phase. -/
def Team.nextPhase (t : Team) (cv : Nat) : Team :=
  match t.cvs.find cv with
  | none => t
  | some v => ({ t with cvs := t.cvs.insert cv { v with q := v.q + 1, ready := none } }).cvAdvance cv

/-- Traps the members whose words differ from the leader's (R131), in order. -/
def State.trapMismatch (s : State) (c r : Nat) (bad : List MatMember) : Option State :=
  bad.foldl (fun acc m => acc.bind (fun s => s.trapMember c r m 1 0 6 (m.lanes.map (·.lane)))) (some s)

/-- The team, its register and the members of an operation that has become ready (R129); the leading words come first. -/
def State.readyOp (s : State) (core tr cv : Nat) : Option (Team × List MatMember × MatLane) :=
  match s.team core tr with
  | none => none
  | some t =>
    match t.cvs.find cv with
    | none => none
    | some v =>
      if t.state != .running || v.ready.isNone then none
      else
        let ms := t.matMembers cv v
        match (ms.head?).bind (fun m => m.lanes.head?) with
        | none => none
        | some l => some (t, ms, l)

/-- Members whose words agree with the leading ones, and the others (R131). -/
def splitMembers (ms : List MatMember) (lead : MatLane) : List MatMember × List MatMember :=
  ms.partition (fun m => m.lanes.all (fun l => l.arr.agrees lead.arr))

/-- Whether no other operation of the core became ready before one: in an earlier cycle, or in the same one on a lower slot (R151). -/
def State.readyFirst (s : State) (core tr cv : Nat) : Bool :=
  match (s.readyOps core).find? (fun e => e.1 == tr && e.2.1 == cv) with
  | none => true
  | some e => (s.readyOps core).all (fun x => decide (e.2.2.1 < x.2.2.1) || (decide (e.2.2.1 = x.2.2.1) && decide (e.2.2.2 ≤ x.2.2.2)))

/-- MATRIX_OP_READY: an operation enters the engine queue and its threads go on (R129 to R131, R151). -/
def execMatrixOpReady (core tr cv : Nat) (s : State) : Host.Outcome State Fault Refusal :=
  match s.readyOp core tr cv with
  | none => .next s
  | some (t, ms, lead) =>
    let isTok := match lead.arr.instr with
      | .mtok .. => true
      | _ => false
    if isTok || !s.readyFirst core tr cv then .next s
    else
      let sp := splitMembers ms lead
      match s.trapMismatch core tr sp.2 with
      | none => .next s
      | some s1 =>
        let leader := ((t.cvs.find cv).map (fun v => v.members.foldl min 32)).getD 32
        let sup := (sp.1.find? (fun m => m.grp = leader)).map (·.lanes)
        let op : MatOp := { tr := tr, leader := lead.arr.instr, a := (sup.getD []).map (fun l => (l.lane, l.arr.a)),
                            sa := (sup.getD []).map (fun l => (l.lane, l.arr.sa)), members := sp.1, constBase := t.env.constBase,
                            results := none, olds := [] }
        let s2 := s1.modTeam core tr (fun t =>
          (sp.1.foldl (fun t m => t.modGroup m.grp (·.releaseAll m)) t).nextPhase cv)
        let live := ((s2.team core tr).map (fun t => t.state == .running)).getD false
        .next (if live then s2.modCore core (fun k => { k with engine := k.engine ++ [op] }) else s2)

/-- MTOK_TAKES_EFFECT (R146). -/
def execMtokTakesEffect (core tr cv : Nat) (s : State) : Host.Outcome State Fault Refusal :=
  match s.readyOp core tr cv with
  | none => .next s
  | some (_, ms, lead) =>
    match lead.arr.instr with
    | .mtok _ rcv =>
      let sp := splitMembers ms lead
      match s.trapMismatch core tr sp.2 with
      | none => .next s
      | some s1 =>
        let slot := (((s.team core tr).bind (fun t => (ms.head?).bind (fun m => t.groups[m.grp]?))).map (·.slot)).getD 0
        let s2 := s1.modTeam core tr (fun t =>
          let t := sp.1.foldl (fun t m => t.modGroup m.grp (fun g => (g.releaseAll m).unpost m.post)) t
          (({ t with token := if rcv.toNat = 8 then none else some rcv.toNat }.nextPhase cv).tokenCheck).noteReady (s.coreCycles core, slot))
        .next (if s.engineOver s2 core then s else s2)
    | _ => .next s

/-! ### The engine (R150 to R153) -/

/-- A poisoned word among the weights that an operation reads (R390). -/
def State.poisonWeights (s : State) (core : Nat) (o : MatOp) : Option Nat :=
  match o.leader with
  | .mvt _ _ _ _ bfw _ mm kk _ =>
    let size := (mm.toNat + 1) * (kk.toNat + 1) * (if bfw == 1#1 then 2 else 4)
    o.members.findSome? (fun m => m.lanes.findSome? (fun l =>
      if l.arr.dRegs.isEmpty then none else s.nearPoison (.const core) (o.constBase + l.arr.sa.toNat) size))
  | _ => none

/-- Forwards an operation's results to the thread that received them (R152). -/
def State.forward (s : State) (core tr : Nat) (o : MatOp) (r : MatResult) : State :=
  match (o.members.find? (fun m => m.grp = r.grp)).bind (fun m => m.lanes.find? (fun l => l.lane = r.lane)) with
  | none => s
  | some l =>
    let s := s.modThread core tr r.grp r.lane (·.patch l.arr.pend r)
    s.modCore core (fun k => { k with engine := k.engine.map (fun x => x.patch tr l.arr.pend r) })

/-- ENGINE_EXECUTE: the oldest operation not yet executed forms its elements and forwards them. -/
def execEngineExecute (core : Nat) (s : State) : Host.Outcome State Fault Refusal :=
  match (s.core core).nextOp with
  | none => .next s
  | some o =>
    match s.poisonWeights core o with
    | some w =>
      let task := ((s.team core o.tr).map (·.ids.task)).getD 0
      .next ((s.modCore core (fun k => { k with engine := k.engine.erase o })).consumePoison task 3 core w 0)
    | none =>
      let rs := o.compute (s.core core).const s.tick
      let s := s.modCore core (fun k => { k with engine := k.engine.map (fun x => if x = o then { o with results := some rs } else x) })
      .next (rs.foldl (fun s r => s.forward core o.tr o r) s)

/-- A thread whose result lands: readable from now on, but inside its window, with its flags (R50, R68, R138). -/
def Thread.landMatrix (th : Thread) (a : Arrival) (r : MatResult) : Thread :=
  let th := th.raise r.flags a.ipc a.pend
  match th.pend.find? (fun (p : Pending) => p.id = a.pend && p.matrix) with
  | none => th
  | some own =>
    let th := th.cancelOlder a.pend (if own.hold then (writeFields a.instr).map th.ix else own.regs.map (·.1)) true
    ({ th with pend := th.pend.map (fun (p : Pending) => if p.id = a.pend && p.matrix then { p with matrix := false, hold := false } else p) }).landSome
      (fun p => p.id = a.pend)

/-- A lane of an operation that still awaits its result: its thread has neither exited nor gone. -/
def Group.awaits (g : Group) (l : MatLane) : Bool :=
  ((g.threads[l.lane]?).map (fun th => th.pend.any (fun p => p.id == l.arr.pend && p.matrix))).getD false

/-- Results of one member land, or its threads trap under NFT (R138); none while the trap must wait. -/
def State.landMember (s : State) (core : Nat) (o : MatOp) (rs : List MatResult) (m : MatMember) : Option State :=
  match (s.team core o.tr).bind (fun t => t.groups[m.grp]?) with
  | none => some s
  | some g =>
    let m := { m with lanes := m.lanes.filter g.awaits }
    let of := fun (l : MatLane) => rs.find? (fun r => r.grp = m.grp && r.lane = l.lane)
    let bad := (m.lanes.filter (fun l => l.arr.nft && ((of l).map (·.bad)).getD false)).map (·.lane)
    if bad.isEmpty then
      some (s.modGroup core o.tr m.grp (fun g =>
        (m.lanes.foldl (fun g l => match of l with
          | some r => g.modThread l.lane (·.landMatrix l.arr r)
          | none => g) g).unpost m.post))
    else
      let a := (m.lanes.head?).map (·.arr)
      let cap : Capture := { grp := m.grp, ipc := (a.map (·.ipc)).getD 0, lanes := m.lanes.map (·.lane), cv := (a.map (·.cv)).getD 0,
                             leader := o.leader, a := o.a, sa := o.sa }
      let mvt := match o.leader with
        | .mvt .. => true
        | _ => false
      (s.trapMember core o.tr m 7 flagNF 0 bad).map (fun s =>
        if mvt then s else s.modTeam core o.tr (fun t => { t with captures := t.captures ++ [cap] }))

/-- MATRIX_RESULT_LANDS: the results of every member land together (R151), then the entry is free. -/
def execMatrixResultLands (core : Nat) (s : State) : Host.Outcome State Fault Refusal :=
  match (s.core core).engine with
  | [] => .next s
  | o :: _ =>
    match o.results with
    | none => .next s
    | some rs =>
      match o.members.foldl (fun acc m => acc.bind (fun s => s.landMember core o rs m)) (some s) with
      | none => .next s
      | some s' => .next ((s'.modCore core (fun k => { k with engine := k.engine.erase o })).watchRestart
          (((s.team core o.tr).map (·.ids.task)).getD (2 ^ 64)))

end Sys2Proof.Machine
end

