-- ==== Sys2Proof/Machine/Sfu.lean ====
section
/-!
DEFINITION. Sfu: the special functions of R105 to R107. A value is computed in fixed point with many more bits than
any destination holds; the spec gives the representable values that bracket the exact one, and which of them the
hardware returns is a free value of Config (R107).
-/

namespace Sys2Proof.Machine

/-- Fraction bits of the fixed-point values of this file. -/
def fxBits : Nat := 1000

/-- pi x 2^1300, rounded down. -/
def piFx : Nat := 0x3243f6a8885a308d313198a2e03707344a4093822299f31d0082efa98ec4e6c89452821e638d01377be5466cf34e90c6cc0ac29b7c97c50dd3f84d5b5b54709179216d5d98979fb1bd1310ba698dfb5ac2ffd72dbd01adfb7b8e1afed6a267e96ba7c9045f12c7f9924a19947b3916cf70801f2e2858efc16636920d871574e69a458fea3f4933d7e0d95748f728eb658718bcd5882154aee7b54a41dc25a59b59c30d

/-- ln 2 x 2^1300, rounded down. -/
def ln2Fx : Nat := 0xb17217f7d1cf79abc9e3b39803f2f6af40f343267298b62d8a0d175b8baafa2be7b876206debac98559552fb4afa1b10ed2eae35c138214427573b291169b8253e96ca16224ae8c51acbda11317c387eb9ea9bc3b136603b256fa0ec7657f74b72ce87b19d6548caf5dfa6bd38303248655fa1872f20e3a2da2d97c50f3fd5c607f4ca11fb5bfb90610d30f88fe551a2ee569d6dfc1efa157d2e23de1400b39617460

/-- ln 2 at fxBits. -/
def ln2At : Nat := ln2Fx / 2 ^ (1300 - fxBits)

/-- The sum of a power series whose next term is the last one times x / (2^fxBits x c n), for `fuel` terms. -/
def seriesSum (x : Int) (c : Nat → Nat) : Nat → Nat → Int → Int
  | 0, _, t => t
  | fuel + 1, n, t => t + seriesSum x c fuel (n + 1) (t * x / 2 ^ fxBits / c n)

/-- e^y for 0 ≤ y < 1 in fixed point. -/
def expFx (y : Nat) : Nat := (seriesSum y (fun n => n) 220 1 (2 ^ fxBits)).toNat

/-- Sum of z^(2n+1) / (2n+1), from the power t = z^(2n+1). -/
def atanhSum (z2 : Nat) : Nat → Nat → Nat → Nat
  | 0, _, _ => 0
  | fuel + 1, n, t => t / n + atanhSum z2 fuel (n + 2) (t * z2 / 2 ^ fxBits)

/-- ln m for 1 ≤ m < 2 in fixed point, from m x 2^fxBits = num. -/
def lnFx (num : Nat) : Nat :=
  let one := 2 ^ fxBits
  let z := (num - one) * one / (num + one)
  2 * atanhSum (z * z / one) 330 1 z

/-- sin y (odd) or cos y for 0 ≤ y < 1 in fixed point: the alternating series. -/
def sinCosFx (odd : Bool) (y : Nat) : Int :=
  let y2 : Int := -(y * y / 2 ^ fxBits : Nat)
  if odd then seriesSum y2 (fun n => 2 * n * (2 * n + 1)) 110 1 y
  else seriesSum y2 (fun n => (2 * n - 1) * (2 * n)) 110 1 (2 ^ fxBits)

/-- num / den x 2^exp in fixed point, rounded down. -/
def toFx (num den : Nat) (exp : Int) : Nat := scaleNat (num * 2 ^ fxBits) exp / den

/-- 2^a for a rational a, as an exact value (rounded far below any destination's precision). -/
def pow2Of (neg : Bool) (num den : Nat) (exp : Int) : Exact :=
  if magGt num exp (2000 * den) 0 then .rat false 1 1 (if neg then -2000 else 2000)
  else
    let a : Int := if neg then -(toFx num den exp : Int) else toFx num den exp
    let n := a / 2 ^ fxBits
    let f := (a - n * 2 ^ fxBits).toNat
    .rat false (expFx (f * ln2At / 2 ^ fxBits)) 1 (n - fxBits)

/-- e^a for a rational a. -/
def expOf (neg : Bool) (num den : Nat) (exp : Int) : Exact := pow2Of neg (num * 2 ^ 1300) (den * ln2Fx) exp

/-- ln of a positive value in fixed point, with its sign: e x ln 2 + ln m. -/
def lnOf (num den : Nat) (exp : Int) : Int :=
  let e := ilog2 num den exp
  let m := toFx num den (exp - e)
  e * ln2At + lnFx m

/-- A signed fixed-point value as an exact value. -/
def ofFx (v : Int) : Exact := .rat (decide (v < 0)) v.natAbs 1 (-(fxBits : Int))

/-- The quotient and remainder of |x| by pi / 2 in fixed point. -/
def reducePi (num : Nat) (exp : Int) : Nat × Nat :=
  let x := scaleNat (num * 2 ^ 1300) exp
  let half := piFx / 2
  (x / half, x % half / 2 ^ (1300 - fxBits))

/-- sin or cos of a finite argument (R105): quadrant and series, halving the argument's range at pi / 4. -/
def sinCosOf (isCos neg : Bool) (num : Nat) (exp : Int) : Exact :=
  let (k, y) := reducePi num exp
  let quarter := piFx / 4 / 2 ^ (1300 - fxBits)
  let q := (k + if isCos then 1 else 0) % 4
  let swap := y > quarter
  let y' := if swap then piFx / 2 / 2 ^ (1300 - fxBits) - y else y
  let odd := q % 2 == 0
  let v := sinCosFx (odd != swap) y'
  let v := if q ≥ 2 then -v else v
  ofFx (if neg && !isCos then -v else v)

/-- tanh |a| = (1 - u) / (1 + u) with u = e^(-2|a|). -/
def tanhOf (neg : Bool) (num : Nat) (exp : Int) : Exact :=
  match expOf true (2 * num) 1 exp with
  | .rat _ n d e =>
    let u := toFx n d e
    .rat neg (2 ^ fxBits - u) (2 ^ fxBits + u) 0
  | v => v

/-- 1 / (1 + e^-a). -/
def sigmOf (neg : Bool) (num : Nat) (exp : Int) : Exact :=
  match expOf true num 1 exp with
  | .rat _ n d e =>
    let u := toFx n d e
    if neg then .rat false u (2 ^ fxBits + u) 0 else .rat false (2 ^ fxBits) (2 ^ fxBits + u) 0
  | v => v

/-- ln(1 + e^a); below the fixed point's reach it is e^a, positive and smaller than any destination holds. -/
def sftpOf (neg : Bool) (num : Nat) (exp : Int) : Exact :=
  match expOf neg num 1 exp with
  | .rat _ n d e =>
    let u := toFx n d e
    if u = 0 then .rat false 1 1 (-1000) else ofFx (lnOf (2 ^ fxBits + u) 1 (-(fxBits : Int)))
  | v => v

/-- A power of two: num x 2^exp = 2^k gives k. -/
def pow2Exp (num : Nat) (exp : Int) : Option Int :=
  if num = 2 ^ Nat.log2 num then some (Nat.log2 num + exp) else none

/-- How the result of a special function is found: by a named exact result (R107), or bracketed within a number of
ulps of the exact value. -/
inductive SfuValue where
  | exact (v : Exact) (fl : FFlags)
  | bracket (v : Exact) (ulps : Nat)
  deriving DecidableEq, Repr

/-- The function code's value at an input already read by fin (R105, R107); `w` is the destination format. -/
def sfuValue (code : Nat) (f : Fmt) (x : FVal) : SfuValue :=
  let one : Exact := .rat false 1 1 0
  let zero := fun neg => Exact.rat neg 0 1 0
  match x with
  | .nan _ => .exact .nan 0
  | .inf neg =>
    match code with
    | 2 => .exact (if neg then zero false else .inf false) 0
    | 3 => if neg then .exact .nan flagIV else .exact (.inf false) 0
    | 4 => .exact (zero neg) 0
    | 5 => if neg then .exact .nan flagIV else .exact (zero false) 0
    | 6 | 7 => .exact .nan flagIV
    | 8 => .exact (.rat neg 1 1 0) 0
    | 9 => .exact (if neg then zero false else one) 0
    | _ => .exact (if neg then zero false else .inf false) 0
  | .fin neg num exp =>
    if num = 0 then
      match code with
      | 2 => .exact one 0
      | 3 => .exact (.inf true) flagDZ
      | 4 | 5 => .exact (.inf neg) flagDZ
      | 6 | 8 => .exact (zero neg) 0
      | 7 => .exact one 0
      | 9 => .exact (.rat false 1 1 (-1)) 0
      | _ => .bracket (ofFx ln2At) 2
    else
      match code with
      | 2 =>
        if exp ≥ 0 || num % 2 ^ (-exp).toNat = 0 then
          (if neg && magGt num exp (-f.emin).toNat 0 || magGt num exp 2000 0 then .bracket (pow2Of neg num 1 exp) 1
           else .exact (.rat false 1 1 (if neg then -(scaleNat num exp : Int) else scaleNat num exp)) 0)
        else .bracket (pow2Of neg num 1 exp) 1
      | 3 =>
        if neg then .exact .nan flagIV
        else match pow2Exp num exp with
          | some k => .exact (.rat (decide (k < 0)) k.natAbs 1 0) 0
          | none =>
            let v := lnOf num 1 exp
            .bracket (.rat (decide (v < 0)) v.natAbs ln2At 0) 1
      | 4 =>
        match pow2Exp num exp with
        | some k => .exact (.rat neg 1 1 (-k)) 0
        | none => .bracket (.rat neg 1 num (-exp)) 1
      | 5 =>
        if neg then .exact .nan flagIV
        else match pow2Exp num exp with
          | some k => if k % 2 = 0 then .exact (.rat false 1 1 (-(k / 2))) 0 else .bracket (exactSqrt 200 1 num (-exp)) 1
          | none => .bracket (exactSqrt 200 1 num (-exp)) 1
      | 6 => .bracket (sinCosOf false neg num exp) 2
      | 7 => .bracket (sinCosOf true neg num exp) 2
      | 8 => if !magGt 91 0 (10 * num) exp then .exact (.rat neg 1 1 0) 0 else .bracket (tanhOf neg num exp) 1
      | 9 =>
        if !neg && !magGt 17 0 num exp then .exact one 0
        else
          let low := match f with
            | .fp32 => 104
            | .fp16 => 18
            | _ => 93
          if neg && !magGt low 0 num exp then .exact (zero false) 0
          else .bracket (sigmOf neg num exp) 1
      | _ => if !neg && !magGt 16 0 num exp then .exact (.rat false num 1 exp) 0 else .bracket (sftpOf neg num exp) 2

/-- The encodings within `ulps` of a non-zero exact value, least magnitude first: encodings of one sign are ordered as
their magnitudes are, and no candidate passes the largest finite one (R107). -/
def bracketCandidates (f : Fmt) (neg : Bool) (num den : Nat) (exp : Int) (ulps : Nat) : List Nat :=
  let qu := ilog2 num den exp - f.frac
  let q := if qu < f.emin then f.emin else qu
  let (k, _, _) := unitsAt num den exp q
  let lo := f.encodeMag k q
  let cands := if ulps = 1 then [lo, lo + 1] else [lo - 4, lo - 3, lo - 2, lo - 1, lo, lo + 1, lo + 2]
  let near := fun b => match f.decode b with
    | .fin _ n e =>
      match exactAdd false (.rat false n 1 e) (.rat true num den exp) with
      | (.rat _ dn dd de, _) => !magGt dn de (ulps * dd) q
      | _ => false
    | _ => false
  (cands.eraseDups.filter (fun b => decide (b ≤ f.maxBits) && near b)).map (f.signBit neg + ·)

/-- A special function of one element (R106, R107): the encoding and the flags. Tiny is judged by R37 from the exact value, rounded to nearest
even with an unbounded exponent, as these functions ignore the rounding mode. -/
def sfuElem (code : Nat) (f : Fmt) (m : Rounding) (x : Nat) : Nat × FFlags :=
  let (v, fl) := f.read m.ftz x
  match sfuValue code f v with
  | .exact e fe =>
    let (b, fr) := f.round { m with rm := 0 } e
    (b, fl ||| fe ||| fr)
  | .bracket e ulps =>
    match e with
    | .rat neg num den exp =>
      let (b0, f0) := f.round { m with rm := 0 } e
      let tiny := (f.round { m with rm := 0, ftz := true } e).2 &&& flagUF != 0
      if f0 &&& flagOF != 0 then (b0, fl ||| f0)
      else if tiny && m.ftz then (f.signBit neg, fl ||| flagUF ||| flagNX)
      else
        let cs := bracketCandidates f neg num den exp ulps
        let b := cs.getD (Config.sfuPick code f.maxBits x % max cs.length 1) b0
        (b, fl ||| flagNX ||| (if tiny then flagUF else 0))
    | e =>
      let (b, fr) := f.round { m with rm := 0 } e
      (b, fl ||| fr)

end Sys2Proof.Machine
end

