-- ==== Sys2Proof/Machine/Special.lean ====
section
/-!
DEFINITION. Special: the major SFU (R105 to R108): division, square root, the approximate functions, integer division.
-/

namespace Sys2Proof.Machine

/-! ### Shared operations -/

/-- One lane of an approximate function (R106, R107); it never steps the generator. -/
def sfuLane (code : Nat) (t : BitVec 2) (d a : BitVec 7) (c : LaneCtx) : LaneOut :=
  floatLane (Fmt.ofFt t) d false (fun r i => sfuElem code (Fmt.ofFt t) r (el (Fmt.ofFt t).width (c.th.rd a) i)) c

/-- FDIV of one element: d / a, rounded once (R105, R106). -/
def divElem (T : Fmt) (r : Rounding) (d a : Nat) : Nat × FFlags :=
  let y := T.read r.ftz d
  let x := T.read r.ftz a
  let v := exactDiv y.1.toExact x.1.toExact
  let e := T.round r v.1
  (e.1, y.2 ||| x.2 ||| v.2 ||| e.2)

/-- FSQRT of one element (R106, R107): FSQRT(-0) is -0, and a value below zero gives NaN with IV. -/
def sqrtElem (T : Fmt) (r : Rounding) (a : Nat) : Nat × FFlags :=
  let x := T.read r.ftz a
  let v : Exact × FFlags := match x.1 with
    | .nan _ => (.nan, 0)
    | .inf neg => if neg then (.nan, flagIV) else (.inf false, 0)
    | .fin neg num exp =>
      if num = 0 then (.rat neg 0 1 0, 0) else if neg then (.nan, flagIV) else (exactSqrt 200 num 1 exp, 0)
  let e := T.round r v.1
  (e.1, x.2 ||| v.2 ||| e.2)

/-- Quotient and remainder (R54): toward zero, the remainder with the dividend's sign; all ones and the dividend for a
zero divisor. -/
def intDivide (signed : Bool) (n d a : Nat) : Int × Int :=
  if a = 0 then (-1, (d : Int))
  else if signed then ((sgn n d).tdiv (sgn n a), (sgn n d).tmod (sgn n a))
  else ((d / a : Nat), (d % a : Nat))

/-- One lane of IDIV or IREM (R108): it is never non-finite, but its window is closed under NFT as that of every SFU instruction (R71). -/
def divideLane (d a : BitVec 7) (w : BitVec 2) (f : Nat → Nat → Nat → Int) : LaneCtx → LaneOut :=
  intLane d a d w (fun _ n x _ z => f n z x)

/-! ### The instructions -/

/-- FDIV: d / a. -/
def execFdiv (d a : BitVec 7) (l : BitVec 4) (t : BitVec 2) (s : State) : Host.Outcome State Fault Refusal :=
  simd (.fdiv d a l t) s true (fun c => floatLane (Fmt.ofFt t) d true (fun r i =>
    divElem (Fmt.ofFt t) r (el (Fmt.ofFt t).width (c.th.rd d) i) (el (Fmt.ofFt t).width (c.th.rd a) i)) c)
/-- FSQRT. -/
def execFsqrt (d a : BitVec 7) (l : BitVec 4) (t : BitVec 2) (s : State) : Host.Outcome State Fault Refusal :=
  simd (.fsqrt d a l t) s true (fun c => floatLane (Fmt.ofFt t) d true (fun r i =>
    sqrtElem (Fmt.ofFt t) r (el (Fmt.ofFt t).width (c.th.rd a) i)) c)
/-- EXP2. -/
def execExp2 (d a : BitVec 7) (l : BitVec 4) (t : BitVec 2) (s : State) : Host.Outcome State Fault Refusal :=
  simd (.exp2 d a l t) s true (sfuLane 2 t d a)
/-- LOG2. -/
def execLog2 (d a : BitVec 7) (l : BitVec 4) (t : BitVec 2) (s : State) : Host.Outcome State Fault Refusal :=
  simd (.log2 d a l t) s true (sfuLane 3 t d a)
/-- RCP. -/
def execRcp (d a : BitVec 7) (l : BitVec 4) (t : BitVec 2) (s : State) : Host.Outcome State Fault Refusal :=
  simd (.rcp d a l t) s true (sfuLane 4 t d a)
/-- RSQ. -/
def execRsq (d a : BitVec 7) (l : BitVec 4) (t : BitVec 2) (s : State) : Host.Outcome State Fault Refusal :=
  simd (.rsq d a l t) s true (sfuLane 5 t d a)
/-- SIN. -/
def execSin (d a : BitVec 7) (l : BitVec 4) (t : BitVec 2) (s : State) : Host.Outcome State Fault Refusal :=
  simd (.sin d a l t) s true (sfuLane 6 t d a)
/-- COS. -/
def execCos (d a : BitVec 7) (l : BitVec 4) (t : BitVec 2) (s : State) : Host.Outcome State Fault Refusal :=
  simd (.cos d a l t) s true (sfuLane 7 t d a)
/-- TANH. -/
def execTanh (d a : BitVec 7) (l : BitVec 4) (t : BitVec 2) (s : State) : Host.Outcome State Fault Refusal :=
  simd (.tanh d a l t) s true (sfuLane 8 t d a)
/-- SIGM. -/
def execSigm (d a : BitVec 7) (l : BitVec 4) (t : BitVec 2) (s : State) : Host.Outcome State Fault Refusal :=
  simd (.sigm d a l t) s true (sfuLane 9 t d a)
/-- SFTP. -/
def execSftp (d a : BitVec 7) (l : BitVec 4) (t : BitVec 2) (s : State) : Host.Outcome State Fault Refusal :=
  simd (.sftp d a l t) s true (sfuLane 10 t d a)
/-- IDIV, signed (R108). -/
def execIdivSigned (d a : BitVec 7) (l : BitVec 4) (w : BitVec 2) (s : State) : Host.Outcome State Fault Refusal :=
  simd (.idivSigned d a l w) s true (divideLane d a w (fun n z x => (intDivide true n z x).1))
/-- IDIV, natural (R108). -/
def execIdivNatural (d a : BitVec 7) (l : BitVec 4) (w : BitVec 2) (s : State) : Host.Outcome State Fault Refusal :=
  simd (.idivNatural d a l w) s true (divideLane d a w (fun n z x => (intDivide false n z x).1))
/-- IREM, signed (R108). -/
def execIremSigned (d a : BitVec 7) (l : BitVec 4) (w : BitVec 2) (s : State) : Host.Outcome State Fault Refusal :=
  simd (.iremSigned d a l w) s true (divideLane d a w (fun n z x => (intDivide true n z x).2))
/-- IREM, natural (R108). -/
def execIremNatural (d a : BitVec 7) (l : BitVec 4) (w : BitVec 2) (s : State) : Host.Outcome State Fault Refusal :=
  simd (.iremNatural d a l w) s true (divideLane d a w (fun n z x => (intDivide false n z x).2))

end Sys2Proof.Machine
end

