-- ==== Sys2Proof/Machine/Dispatch.lean ====
section
/-!
DEFINITION. Dispatch: the one match over Instr, one arm per constructor, each a direct call of its meaning.
-/

namespace Sys2Proof.Machine

/-- The meaning of every instruction and every step of another agent. -/
def exec (i : Instr) (s : State) : Host.Outcome State Fault Refusal :=
  match i with
  | .trl f s0 t a => Sys2Proof.Machine.execTrl f s0 t a s
  | .iadd d a b w => Sys2Proof.Machine.execIadd d a b w s
  | .isub d a b w => Sys2Proof.Machine.execIsub d a b w s
  | .imul d a b w => Sys2Proof.Machine.execImul d a b w s
  | .imulh d a b w => Sys2Proof.Machine.execImulh d a b w s
  | .imulhn d a b w => Sys2Proof.Machine.execImulhn d a b w s
  | .imad d a b w => Sys2Proof.Machine.execImad d a b w s
  | .imin d a b w => Sys2Proof.Machine.execImin d a b w s
  | .imax d a b w => Sys2Proof.Machine.execImax d a b w s
  | .iminn d a b w => Sys2Proof.Machine.execIminn d a b w s
  | .imaxn d a b w => Sys2Proof.Machine.execImaxn d a b w s
  | .shl d a b w => Sys2Proof.Machine.execShl d a b w s
  | .shr d a b w => Sys2Proof.Machine.execShr d a b w s
  | .sar d a b w => Sys2Proof.Machine.execSar d a b w s
  | .rol d a b w => Sys2Proof.Machine.execRol d a b w s
  | .ror d a b w => Sys2Proof.Machine.execRor d a b w s
  | .icmp c p a b w => Sys2Proof.Machine.execIcmp c p a b w s
  | .iaddc d a w c => Sys2Proof.Machine.execIaddc d a w c s
  | .isubb d a w c => Sys2Proof.Machine.execIsubb d a w c s
  | .ineg d a n w => Sys2Proof.Machine.execIneg d a n w s
  | .iabs d a n w => Sys2Proof.Machine.execIabs d a n w s
  | .popc d a w => Sys2Proof.Machine.execPopc d a w s
  | .clz d a w => Sys2Proof.Machine.execClz d a w s
  | .ctz d a w => Sys2Proof.Machine.execCtz d a w s
  | .brev d a w => Sys2Proof.Machine.execBrev d a w s
  | .and d a b => Sys2Proof.Machine.execAnd d a b s
  | .or d a b => Sys2Proof.Machine.execOr d a b s
  | .xor d a b => Sys2Proof.Machine.execXor d a b s
  | .andn d a b => Sys2Proof.Machine.execAndn d a b s
  | .not d a => Sys2Proof.Machine.execNot d a s
  | .mov d a => Sys2Proof.Machine.execMov d a s
  | .sel d a w c => Sys2Proof.Machine.execSel d a w c s
  | .prmb d a b => Sys2Proof.Machine.execPrmb d a b s
  | .bfxNatural d a b => Sys2Proof.Machine.execBfxNatural d a b s
  | .bfxSigned d a b => Sys2Proof.Machine.execBfxSigned d a b s
  | .bfi d a b => Sys2Proof.Machine.execBfi d a b s
  | .lea d a b k => Sys2Proof.Machine.execLea d a b k s
  | .pand d a b => Sys2Proof.Machine.execPand d a b s
  | .por d a b => Sys2Proof.Machine.execPor d a b s
  | .pxor d a b => Sys2Proof.Machine.execPxor d a b s
  | .pnot d a => Sys2Proof.Machine.execPnot d a s
  | .p2g d a => Sys2Proof.Machine.execP2g d a s
  | .g2p d a => Sys2Proof.Machine.execG2p d a s
  | .wmacl d a b c => Sys2Proof.Machine.execWmacl d a b c s
  | .wmach d a b c => Sys2Proof.Machine.execWmach d a b c s
  | .iaddNatural d a b w => Sys2Proof.Machine.execIaddNatural d a b w s
  | .isubNatural d a b w => Sys2Proof.Machine.execIsubNatural d a b w s
  | .imulNatural d a b w => Sys2Proof.Machine.execImulNatural d a b w s
  | .addi d a i0 => Sys2Proof.Machine.execAddi d a i0 s
  | .andImmediate d a i0 => Sys2Proof.Machine.execAndImmediate d a i0 s
  | .orImmediate d a i0 => Sys2Proof.Machine.execOrImmediate d a i0 s
  | .xorImmediate d a i0 => Sys2Proof.Machine.execXorImmediate d a i0 s
  | .andnImmediate d a i0 => Sys2Proof.Machine.execAndnImmediate d a i0 s
  | .shlImmediate d a k => Sys2Proof.Machine.execShlImmediate d a k s
  | .shrImmediate d a k => Sys2Proof.Machine.execShrImmediate d a k s
  | .sarImmediate d a k => Sys2Proof.Machine.execSarImmediate d a k s
  | .rolImmediate d a k => Sys2Proof.Machine.execRolImmediate d a k s
  | .rorImmediate d a k => Sys2Proof.Machine.execRorImmediate d a k s
  | .bfxImmediateNatural d a l p => Sys2Proof.Machine.execBfxImmediateNatural d a l p s
  | .bfxImmediateSigned d a l p => Sys2Proof.Machine.execBfxImmediateSigned d a l p s
  | .cmpi c p a i0 => Sys2Proof.Machine.execCmpi c p a i0 s
  | .lui d i0 => Sys2Proof.Machine.execLui d i0 s
  | .fadd d a b t => Sys2Proof.Machine.execFadd d a b t s
  | .fsub d a b t => Sys2Proof.Machine.execFsub d a b t s
  | .fmul d a b t => Sys2Proof.Machine.execFmul d a b t s
  | .ffma d a b t => Sys2Proof.Machine.execFfma d a b t s
  | .ffms d a b t => Sys2Proof.Machine.execFfms d a b t s
  | .fnma d a b t => Sys2Proof.Machine.execFnma d a b t s
  | .fabs d a t => Sys2Proof.Machine.execFabs d a t s
  | .fneg d a t => Sys2Proof.Machine.execFneg d a t s
  | .fcps d a b t => Sys2Proof.Machine.execFcps d a b t s
  | .fcmp c p a b t => Sys2Proof.Machine.execFcmp c p a b t s
  | .fclass p a m t => Sys2Proof.Machine.execFclass p a m t s
  | .fmin d a b t => Sys2Proof.Machine.execFmin d a b t s
  | .fmax d a b t => Sys2Proof.Machine.execFmax d a b t s
  | .cvt d a p s0 t => Sys2Proof.Machine.execCvt d a p s0 t s
  | .cvts d a p s0 t => Sys2Proof.Machine.execCvts d a p s0 t s
  | .seed a => Sys2Proof.Machine.execSeed a s
  | .rnd d => Sys2Proof.Machine.execRnd d s
  | .fdiv d a l t => Sys2Proof.Machine.execFdiv d a l t s
  | .fsqrt d a l t => Sys2Proof.Machine.execFsqrt d a l t s
  | .exp2 d a l t => Sys2Proof.Machine.execExp2 d a l t s
  | .log2 d a l t => Sys2Proof.Machine.execLog2 d a l t s
  | .rcp d a l t => Sys2Proof.Machine.execRcp d a l t s
  | .rsq d a l t => Sys2Proof.Machine.execRsq d a l t s
  | .sin d a l t => Sys2Proof.Machine.execSin d a l t s
  | .cos d a l t => Sys2Proof.Machine.execCos d a l t s
  | .tanh d a l t => Sys2Proof.Machine.execTanh d a l t s
  | .sigm d a l t => Sys2Proof.Machine.execSigm d a l t s
  | .sftp d a l t => Sys2Proof.Machine.execSftp d a l t s
  | .idivSigned d a l w => Sys2Proof.Machine.execIdivSigned d a l w s
  | .idivNatural d a l w => Sys2Proof.Machine.execIdivNatural d a l w s
  | .iremSigned d a l w => Sys2Proof.Machine.execIremSigned d a l w s
  | .iremNatural d a l w => Sys2Proof.Machine.execIremNatural d a l w s
  | .shfl d a m w l => Sys2Proof.Machine.execShfl d a m w l s
  | .bcast d a s0 l => Sys2Proof.Machine.execBcast d a s0 l s
  | .vote d a k l => Sys2Proof.Machine.execVote d a k l s
  | .voteBallot d a l => Sys2Proof.Machine.execVoteBallot d a l s
  | .matchLanes d a l => Sys2Proof.Machine.execMatchLanes d a l s
  | .reduce d a s0 o w l => Sys2Proof.Machine.execReduce d a s0 o w l s
  | .scanInclusive d a s0 o w l => Sys2Proof.Machine.execScanInclusive d a s0 o w l s
  | .scanExclusive d a s0 o w l => Sys2Proof.Machine.execScanExclusive d a s0 o w l s
  | .mma d a b l sc z sa sb cv ta tb => Sys2Proof.Machine.execMma d a b l sc z sa sb cv ta tb s
  | .mmas d a b l sc z sa sb cv ta tb pat => Sys2Proof.Machine.execMmas d a b l sc z sa sb cv ta tb pat s
  | .mtrn d b l cv t => Sys2Proof.Machine.execMtrn d b l cv t s
  | .mperm d b l amt cv t axis mode => Sys2Proof.Machine.execMperm d b l amt cv t axis mode s
  | .mrsum d b l cv t axis => Sys2Proof.Machine.execMrsum d b l cv t axis s
  | .mtok cv rcv => Sys2Proof.Machine.execMtok cv rcv s
  | .mvt d a b l bfw z mm kk off => Sys2Proof.Machine.execMvt d a b l bfw z mm kk off s
  | .lds d b o s0 l => Sys2Proof.Machine.execLds d b o s0 l s
  | .ldt d b o s0 l => Sys2Proof.Machine.execLdt d b o s0 l s
  | .ldc d b o s0 l => Sys2Proof.Machine.execLdc d b o s0 l s
  | .ldx d b o s0 l => Sys2Proof.Machine.execLdx d b o s0 l s
  | .st d b o s0 p z => Sys2Proof.Machine.execSt d b o s0 p z s
  | .atom d a b l fn sp op t o => Sys2Proof.Machine.execAtom d a b l fn sp op t o s
  | .fence s0 o => Sys2Proof.Machine.execFence s0 o s
  | .binit n a => Sys2Proof.Machine.execBinit n a s
  | .barr d e n => Sys2Proof.Machine.execBarr d e n s
  | .bexp e r n a => Sys2Proof.Machine.execBexp e r n a s
  | .bwait p a c n => Sys2Proof.Machine.execBwait p a c n s
  | .bqry d c s0 n => Sys2Proof.Machine.execBqry d c s0 n s
  | .cbar d e n => Sys2Proof.Machine.execCbar d e n s
  | .course p => Sys2Proof.Machine.execCourse p s
  | .kwait n m c => Sys2Proof.Machine.execKwait n m c s
  | .srinit f r a o n => Sys2Proof.Machine.execSrinit f r a o n s
  | .sracq p a r => Sys2Proof.Machine.execSracq p a r s
  | .srput x e r a b => Sys2Proof.Machine.execSrput x e r a b s
  | .srget p a r => Sys2Proof.Machine.execSrget p a r s
  | .srrel e r a => Sys2Proof.Machine.execSrrel e r a s
  | .srclose r => Sys2Proof.Machine.execSrclose r s
  | .cvset a c => Sys2Proof.Machine.execCvset a c s
  | .sign c => Sys2Proof.Machine.execSign c s
  | .cvwait c => Sys2Proof.Machine.execCvwait c s
  | .lock a n => Sys2Proof.Machine.execLock a n s
  | .unlock a => Sys2Proof.Machine.execUnlock a s
  | .cpost d a l => Sys2Proof.Machine.execCpost d a l s
  | .tpost a => Sys2Proof.Machine.execTpost a s
  | .freeze a n => Sys2Proof.Machine.execFreeze a n s
  | .thaw a n => Sys2Proof.Machine.execThaw a n s
  | .rgqry d a l => Sys2Proof.Machine.execRgqry d a l s
  | .gwqry d a l => Sys2Proof.Machine.execGwqry d a l s
  | .br g n o => Sys2Proof.Machine.execBr g n o s
  | .call g n o => Sys2Proof.Machine.execCall g n o s
  | .nop => Sys2Proof.Machine.execNop s
  | .yield => Sys2Proof.Machine.execYield s
  | .exit => Sys2Proof.Machine.execExit s
  | .ret => Sys2Proof.Machine.execRet s
  | .retTrap => Sys2Proof.Machine.execRetTrap s
  | .jmpr a => Sys2Proof.Machine.execJmpr a s
  | .trap c => Sys2Proof.Machine.execTrap c s
  | .tfence => Sys2Proof.Machine.execTfence s
  | .bkpt => Sys2Proof.Machine.execBkpt s
  | .win b => Sys2Proof.Machine.execWin b s
  | .srd d n => Sys2Proof.Machine.execSrd d n s
  | .swr a n => Sys2Proof.Machine.execSwr a n s
  | .fstc d => Sys2Proof.Machine.execFstc d s
  | .issueTurn core slot => Sys2Proof.Machine.execIssueTurn core slot s
  | .longLatencyWriteLands core rec grp lane idx => Sys2Proof.Machine.execLongLatencyWriteLands core rec grp lane idx s
  | .barrierWaiterWake core rec grp => Sys2Proof.Machine.execBarrierWaiterWake core rec grp s
  | .cbarArrival core rec => Sys2Proof.Machine.execCbarArrival core rec s
  | .courseCompletion grid => Sys2Proof.Machine.execCourseCompletion grid s
  | .ringClosed core rec ring => Sys2Proof.Machine.execRingClosed core rec ring s
  | .matrixOpReady core rec cv => Sys2Proof.Machine.execMatrixOpReady core rec cv s
  | .mtokTakesEffect core rec cv => Sys2Proof.Machine.execMtokTakesEffect core rec cv s
  | .engineExecute core => Sys2Proof.Machine.execEngineExecute core s
  | .matrixResultLands core => Sys2Proof.Machine.execMatrixResultLands core s
  | .lockGrant die word => Sys2Proof.Machine.execLockGrant die word s
  | .tileBankAccess die bank => Sys2Proof.Machine.execTileBankAccess die bank s
  | .peerPortAccess core bank => Sys2Proof.Machine.execPeerPortAccess core bank s
  | .hodAcceptPacket core => Sys2Proof.Machine.execHodAcceptPacket core s
  | .ringSlotRead core q => Sys2Proof.Machine.execRingSlotRead core q s
  | .inboxCommand core => Sys2Proof.Machine.execInboxCommand core s
  | .copy core slot n => Sys2Proof.Machine.execCopy core slot n s
  | .gather core slot n => Sys2Proof.Machine.execGather core slot n s
  | .scatter core slot n => Sys2Proof.Machine.execScatter core slot n s
  | .scatred core slot n => Sys2Proof.Machine.execScatred core slot n s
  | .fill core slot n => Sys2Proof.Machine.execFill core slot n s
  | .gwbind core slot => Sys2Proof.Machine.execGwbind core slot s
  | .gwfree core slot => Sys2Proof.Machine.execGwfree core slot s
  | .prefetch core slot n => Sys2Proof.Machine.execPrefetch core slot n s
  | .atomic core slot => Sys2Proof.Machine.execAtomic core slot s
  | .fenceCommand core slot => Sys2Proof.Machine.execFenceCommand core slot s
  | .commandCompletion core slot => Sys2Proof.Machine.execCommandCompletion core slot s
  | .pageFaultResolution ctx va => Sys2Proof.Machine.execPageFaultResolution ctx va s
  | .holdTimeExpiry core slot => Sys2Proof.Machine.execHoldTimeExpiry core slot s
  | .commandResume core slot => Sys2Proof.Machine.execCommandResume core slot s
  | .commandAbandon core slot => Sys2Proof.Machine.execCommandAbandon core slot s
  | .networkAcknowledgement core slot => Sys2Proof.Machine.execNetworkAcknowledgement core slot s
  | .sendRetryTimeout core slot => Sys2Proof.Machine.execSendRetryTimeout core slot s
  | .networkPacketReceive q src job sq mid off total payload => Sys2Proof.Machine.execNetworkPacketReceive q src job sq mid off total payload s
  | .peerRemoteRequest endpoint job req addr len op type operand comparand data => Sys2Proof.Machine.execPeerRemoteRequest endpoint job req addr len op type operand comparand data s
  | .remoteWriteRefusal ctx peer addr => Sys2Proof.Machine.execRemoteWriteRefusal ctx peer addr s
  | .sectorFillComplete die sector => Sys2Proof.Machine.execSectorFillComplete die sector s
  | .l2Eviction die sector => Sys2Proof.Machine.execL2Eviction die sector s
  | .launchAccept q => Sys2Proof.Machine.execLaunchAccept q s
  | .gangBind ctx => Sys2Proof.Machine.execGangBind ctx s
  | .bindRecordValid core rec => Sys2Proof.Machine.execBindRecordValid core rec s
  | .bindRecordGo task => Sys2Proof.Machine.execBindRecordGo task s
  | .continuationRecordArrival idx => Sys2Proof.Machine.execContinuationRecordArrival idx s
  | .palletTimerExpiry ctx node slice => Sys2Proof.Machine.execPalletTimerExpiry ctx node slice s
  | .watchdogExpiry task => Sys2Proof.Machine.execWatchdogExpiry task s
  | .taskFailure task => Sys2Proof.Machine.execTaskFailure task s
  | .retire session node ctx => Sys2Proof.Machine.execRetire session node ctx s
  | .teamStateRelease core rec => Sys2Proof.Machine.execTeamStateRelease core rec s
  | .launchEnd grid => Sys2Proof.Machine.execLaunchEnd grid s
  | .nodeEnd ctx node => Sys2Proof.Machine.execNodeEnd ctx node s
  | .discardReport task => Sys2Proof.Machine.execDiscardReport task s
  | .launchQueueEntryWrite session q val => Sys2Proof.Machine.execLaunchQueueEntryWrite session q val s
  | .unfreeze session q => Sys2Proof.Machine.execUnfreeze session q s
  | .hodQueueEntryWrite core q val => Sys2Proof.Machine.execHodQueueEntryWrite core q val s
  | .create session => Sys2Proof.Machine.execCreate session s
  | .contextKeyDerived ctx => Sys2Proof.Machine.execContextKeyDerived ctx s
  | .teardown session => Sys2Proof.Machine.execTeardown session s
  | .teardownComplete ctx => Sys2Proof.Machine.execTeardownComplete ctx s
  | .setregion session => Sys2Proof.Machine.execSetregion session s
  | .mailboxFreeze session => Sys2Proof.Machine.execMailboxFreeze session s
  | .mailboxThaw session => Sys2Proof.Machine.execMailboxThaw session s
  | .inval session => Sys2Proof.Machine.execInval session s
  | .discard session => Sys2Proof.Machine.execDiscard session s
  | .repart session => Sys2Proof.Machine.execRepart session s
  | .repartTakesEffect ctx => Sys2Proof.Machine.execRepartTakesEffect ctx s
  | .freezeDrainEnd ctx idx => Sys2Proof.Machine.execFreezeDrainEnd ctx idx s
  | .peerThawAck ctx idx peer => Sys2Proof.Machine.execPeerThawAck ctx idx peer s
  | .thawlimitExpiry ctx idx => Sys2Proof.Machine.execThawlimitExpiry ctx idx s
  | .thawCollectionEnd ctx idx => Sys2Proof.Machine.execThawCollectionEnd ctx idx s
  | .gclSessionOpen owner => Sys2Proof.Machine.execGclSessionOpen owner s
  | .gclRead session ch addr len => Sys2Proof.Machine.execGclRead session ch addr len s
  | .gclWrite session ch addr data => Sys2Proof.Machine.execGclWrite session ch addr data s
  | .gclAtomic session ch addr op size operand comparand => Sys2Proof.Machine.execGclAtomic session ch addr op size operand comparand s
  | .gclFence session ch => Sys2Proof.Machine.execGclFence session ch s
  | .gclWindowWrite session win val => Sys2Proof.Machine.execGclWindowWrite session win val s
  | .registerWrite session addr val => Sys2Proof.Machine.execRegisterWrite session addr val s
  | .sharekey session => Sys2Proof.Machine.execSharekey session s
  | .dropkey session => Sys2Proof.Machine.execDropkey session s
  | .attest session => Sys2Proof.Machine.execAttest session s
  | .getcert session => Sys2Proof.Machine.execGetcert session s
  | .stagefw session => Sys2Proof.Machine.execStagefw session s
  | .patrolScrub unit owner word => Sys2Proof.Machine.execPatrolScrub unit owner word s
  | .containment task => Sys2Proof.Machine.execContainment task s
  | .unitFence kind idx => Sys2Proof.Machine.execUnitFence kind idx s
  | .linkFlitRetry link => Sys2Proof.Machine.execLinkFlitRetry link s
  | .schedulerTakeover => Sys2Proof.Machine.execSchedulerTakeover s
  | .dieFault die => Sys2Proof.Machine.execDieFault die s
  | .dieTestComplete die pass => Sys2Proof.Machine.execDieTestComplete die pass s
  | .dieReadmit die => Sys2Proof.Machine.execDieReadmit die s
  | .coldReset => Sys2Proof.Machine.execColdReset s
  | .warmReset => Sys2Proof.Machine.execWarmReset s
  | .powerStateRequest session state => Sys2Proof.Machine.execPowerStateRequest session state s
  | .p1Entry => Sys2Proof.Machine.execP1Entry s
  | .p1Exit => Sys2Proof.Machine.execP1Exit s
  | .powercap session val => Sys2Proof.Machine.execPowercap session val s
  | .thermalStep die temp => Sys2Proof.Machine.execThermalStep die temp s
  | .thermalShutdown => Sys2Proof.Machine.execThermalShutdown s
  | .softError unit owner word uncorrectable => Sys2Proof.Machine.execSoftError unit owner word uncorrectable s
  | .remoteReadRefusal core slot => Sys2Proof.Machine.execRemoteReadRefusal core slot s

end Sys2Proof.Machine
end

