-- ==== Sys2Proof/Machine/Step.lean ====
section
/-!
DEFINITION. Step: one step of the package. A coming step of another agent comes first; otherwise the issue turn in
progress fetches and executes its next instruction; otherwise the next slot gives a turn (log 1).
-/

namespace Sys2Proof.Machine

/-- The next slot of the package, counting slots over all cores. -/
def State.nextSlot (s : State) : Nat × Nat := (s.rotor / Config.slots % Config.cores, s.rotor % Config.slots)

/-- The issue turn's next instruction (R9): fetched once the slot is free (R124), then executed, or the trap that its fetch takes. An issue set
that awaits a result of its own issues no younger word (R71). -/
def stepTurn (t : Turn) (team : Team) (g : Group) (s0 : State) : Host.Outcome State Fault Refusal :=
  let s := s0.beginIssue t.core g.slot
  if turnHolds t g then stall s0 t.core
  else match fetch s t team g with
  | .absent => .fault .codePageAbsent
  | .poison word addr => .next (s.consumePoison team.ids.task 7 t.core word addr)
  | .trap code detail lanes addr =>
    let pc := fetchPc t g
    takeTrap s { t with ipc := pc } code 0 detail lanes (BitVec.ofNat 64 addr) (BitVec.ofNat 64 pc)
  | .go i t => exec i { s with turn := some t }

/-- The cores' own next step: the turn in progress issues an instruction, or with none the next slot gives a turn. -/
def stepCores (s : State) : Host.Outcome State Fault Refusal :=
  match s.turn with
  | some t =>
    match s.team t.core t.tr with
    | none => .next { s with turn := none }
    | some team =>
      match team.groups[t.grp]? with
      | none => .next { s with turn := none }
      | some g => stepTurn t team g s
  | none => exec (.issueTurn s.nextSlot.1 s.nextSlot.2) { s with rotor := (s.rotor + 1) % (Config.cores * Config.slots) }

/-- What comes next, after the time that passes before it. A core's instruction is no step of another agent; after each of these the host's side goes
on. -/
def stepComing (c : Coming) (s : State) : Host.Outcome State Fault Refusal :=
  let s := { s with ns := s.ns + c.ns, cycles := s.cycles + c.cycles }
  match c.ev with
  | none => stepCores s
  | some ev =>
    if !ev.isEvent then .next s
    else match exec ev s with
      | .next s => .next s.settle
      | x => x

/-- One step of the package. -/
def step (s0 : State) : Host.Outcome State Fault Refusal :=
  let s := { s0 with tick := s0.tick + 1 }
  match s.coming with
  | c :: rest => stepComing c { s with coming := rest }
  | [] => stepCores s

/-- The state in which the next step fetches and runs one instruction word (log 1). -/
def State.withFetchWord (s : State) (nbits w : Nat) : State := s.placeWord nbits w

end Sys2Proof.Machine
end

