-- ==== Sys2Proof/Safety.lean ====
section
/-!
DEFINITION. Safety: what counts as a safe run, the canonical forms that every step should keep, and the states in which an instruction
completes: what the statements about the machine are said in.
-/

namespace Sys2Proof.Machine

/-- A state from which n steps neither fault nor are refused. -/
def State.safeFor (s : State) : Nat → Prop
  | 0 => True
  | n + 1 => match step s with
    | .next s' => State.safeFor s' n
    | .fault _ | .refused _ => False

/-- The memories of the package keep their canonical form: device memory, and every near memory. -/
def State.memoriesOk (s : State) : Bool :=
  s.far.wf && s.cores.all (fun e => Memory.wf e.2.scratch && Memory.wf e.2.const) && s.dies.all (fun e => Memory.wf e.2.tile)

/-- A thread of the package. -/
def State.threadAt (s : State) (c r g l : Nat) : Option Thread := ((s.team c r).bind (fun m => m.groups[g]?)).bind (fun x => x.threads[l]?)

/-- The lanes of an issue set with their threads and modes. -/
def issueLanes (t : Turn) (g : Group) : List LaneCtx := t.lanes.filterMap (fun l => (g.threads[l]?).map (fun th => ⟨l, th, th.modes t.pfx⟩))

/-- A turn of a group whose lanes have no result, poison, acquire or fence outstanding. -/
structure AtIssue (s : State) (t : Turn) (m : Team) (g : Group) : Prop where
  turn : s.turn = some t
  team : s.team t.core t.tr = some m
  group : m.groups[t.grp]? = some g
  nodup : t.lanes.Nodup
  quiet : ∀ c ∈ issueLanes t g, c.th.pend = [] ∧ c.th.poison = [] ∧ c.th.relFence = false ∧ c.th.acqs = [] ∧ c.th.fences = []

/-- The turn's instruction, no word of which and no window of a lane traps (R60, R61). -/
structure Issuing (i : Instr) (s : State) (t : Turn) (m : Team) (g : Group) : Prop extends AtIssue s t m g where
  words : wordTraps i t g ((issueLanes t g).map (fun c => (c.lane, c.th))) = none

/-- An instruction is ready: what the state decides of it is no trap either (R61 item 11). -/
structure Ready (i : Instr) (s : State) (t : Turn) (m : Team) (g : Group) : Prop extends Issuing i s t m g where
  uses : badUseLanes i { t := t, team := m, grp := g, lanes := issueLanes t g } = []

/-- A step changes nothing but the threads of an issue set, how long its slot is occupied (R124, R195) and the turn. -/
structure TouchesOnly (s s' : State) (t : Turn) : Prop where
  rest : { s' with cores := s.cores, turn := s.turn } = s
  cores : ∀ c, c ≠ t.core → s'.core c = s.core c
  core : { s'.core t.core with busy := (s.core t.core).busy, teams := (s.core t.core).teams } = s.core t.core
  busy : ∀ k, k ≠ s.slotOf t → (s'.core t.core).busy[k]? = (s.core t.core).busy[k]?
  teams : ∀ r, r ≠ t.tr → s'.team t.core r = s.team t.core r
  team : ∀ m, s.team t.core t.tr = some m → ∃ m', s'.team t.core t.tr = some m' ∧ { m' with groups := m.groups } = m ∧
    (∀ k, k ≠ t.grp → m'.groups[k]? = m.groups[k]?) ∧
    ∀ g, m.groups[t.grp]? = some g → ∃ g', m'.groups[t.grp]? = some g' ∧ { g' with threads := g.threads } = g ∧
      ∀ l, l ∉ t.lanes → g'.threads[l]? = g.threads[l]?

/-- No byte of any memory changes. -/
structure SameMemory (s s' : State) : Prop where
  far : ∀ a, s'.far.read a = s.far.read a
  scratch : ∀ c a, (s'.core c).scratch.read a = (s.core c).scratch.read a
  const : ∀ c a, (s'.core c).const.read a = (s.core c).const.read a
  tile : ∀ d a, (s'.die d).tile.read a = (s.die d).tile.read a

/-- The thread of a lane after an instruction, with every result landed. -/
def Outcome (s' : State) (t : Turn) (c : LaneCtx) (th : Thread) : Prop :=
  ∃ th', s'.threadAt t.core t.tr t.grp c.lane = some th' ∧ th'.landAll = some th

/-- A thread after an instruction whose destinations are the register fields `fs` and the predicates `ps`: everything else of it stays, and the
PC and the position in the run move on. -/
structure Advanced (fs ps : List Nat) (t : Turn) (th th' : Thread) : Prop where
  pc : th'.pc = th.pc + BitVec.ofNat 64 t.len
  pos : th'.pos = th.pos + 1
  wb : th'.wb = th.wb
  xmode : th'.xmode = th.xmode
  status : th'.status = th.status
  xfer : th'.xfer = th.xfer
  signed : th'.signed = th.signed
  held : th'.held = th.held
  regs : ∀ r, r ∉ fs.map th.ix → th'.reg r = th.reg r
  preds : ∀ p, p ∉ ps → th'.pred p = th.pred p

/-- An instruction completes in its issue set alone: no byte of memory changes, and every lane is left as `P` says. -/
def Executes (i : Instr) (s : State) (t : Turn) (g : Group) (fs ps : List Nat) (P : LaneCtx → Thread → Prop) : Prop :=
  ∃ s', exec i s = .next s' ∧ TouchesOnly s s' t ∧ SameMemory s s' ∧
    ∀ c ∈ issueLanes t g, ∃ th', Outcome s' t c th' ∧ Advanced fs ps t c.th th' ∧ P c th'

/-- The flags and the generator stay (R25, R43). -/
def SameFlags (th th' : Thread) : Prop := th'.fflags = th.fflags ∧ th'.ffpc = th.ffpc ∧ th'.seed = th.seed

/-- Flags are ORed into %fflags, and %ffpc takes the instruction's first word when it is the first to raise one since %fflags was zero (R25,
R51). -/
structure Raises (s : State) (t : Turn) (fl : FFlags) (th th' : Thread) : Prop where
  flags : th'.fflags = th.fflags ||| fl
  kept : fl = 0 ∨ (th.fflags ≠ 0 ∧ th.ffat ≤ s.tick) → th'.ffpc = th.ffpc
  set : fl ≠ 0 → th.fflags = 0 → th'.ffpc = BitVec.ofNat 64 t.ipc

/-- Sub-element k of width n of a word (R18). -/
def elem (n : Nat) (x : Word) (k : Nat) : BitVec n := x.extractLsb' (n * k) n

/-- A register written at S sub-elements of width n (R14): each active one takes `f k`, the others keep their bits. -/
def WritesEls (S n : Nat) (guard : Byte) (old new : Word) (f : Nat → BitVec n) : Prop :=
  ∀ k, k < S → elem n new k = if onEl guard S k then f k else elem n old k

/-- How many active elements of S come before element k. -/
def rankOf (S : Nat) (guard : Byte) (k : Nat) : Nat := ((List.range k).filter (onEl guard S)).length

/-- A thread that has issued an instruction and written nothing: the PC and the position in the run move on. -/
def Thread.stepped (th : Thread) (len : Nat) : Thread := { th with pc := th.pc + BitVec.ofNat 64 len, pos := th.pos + 1, unchecked := false }

/-- An instruction completes in its issue set alone, and leaves each lane the thread that `f` gives. -/
def Leaves (i : Instr) (s : State) (t : Turn) (g : Group) (f : LaneCtx → Thread) : Prop :=
  ∃ s', exec i s = .next s' ∧ TouchesOnly s s' t ∧ SameMemory s s' ∧
    ∀ c ∈ issueLanes t g, s'.threadAt t.core t.tr t.grp c.lane = some (f c)

/-- Every lane of the issue set is a thread of the group. -/
def LanesExist (t : Turn) (g : Group) : Prop := ∀ l ∈ t.lanes, l < g.threads.length

/-- A trap is taken (R28, R29): `f` gives each trapping thread as it stands after what it had issued. The frame holds the cause, the resume
address, the address involved, and each trapping thread's window, run temporaries and position; those threads are at the handler with their
run temporaries zero, the group's others are held, the issue turn ends with any turn of the group that was set aside (R9), and nothing else
changes. -/
structure TrapTaken (s s' : State) (t : Turn) (m : Team) (g : Group) (f : LaneCtx → Thread) (cause pc addr : Word) : Prop where
  turn : s'.turn = none
  parked : s'.parked = s.parked.filter (fun q => !(q.turn.core == t.core && q.turn.tr == t.tr && q.turn.grp == t.grp))
  rest : { s' with cores := s.cores, turn := s.turn, parked := s.parked } = s
  memory : SameMemory s s'
  cores : ∀ c, c ≠ t.core → s'.core c = s.core c
  teams : ∀ r, r ≠ t.tr → s'.team t.core r = s.team t.core r
  team : ∃ m' g', s'.team t.core t.tr = some m' ∧ { m' with groups := m.groups } = m ∧
    (∀ k, k ≠ t.grp → m'.groups[k]? = m.groups[k]?) ∧ m'.groups[t.grp]? = some g' ∧
    { g' with threads := g.threads, frame := none } = { g with frame := none } ∧
    g'.frame = some { cause := cause, trappc := pc, trapaddr := addr, pcWritten := false, saved := (issueLanes t g).map (fun c =>
      { lane := c.lane, wb := c.th.wb, temps := (f c).regs.filter (fun e => decide (256 ≤ e.1)), pos := (f c).pos, xfer := (f c).xfer,
        back := false }) } ∧
    (∀ c ∈ issueLanes t g, g'.threads[c.lane]? = some { f c with
      pc := BitVec.ofNat 64 (m.env.handlers.getD g.role 0), pos := 0, xfer := none, unchecked := false, status := .run,
      regs := (f c).regs.filter (fun e => decide (e.1 < 256)) }) ∧
    ∀ l, l ∉ t.lanes → g'.threads[l]? = (g.threads[l]?).map (fun th => { th with held := true })

/-- An unhandled trap stops the whole team (R30) with the trap's cause, resume address and address: the issue turn ends with those of the team
that were set aside, the engine drops the team's operations, the team's locks and requests are released (R187, R194), and nothing of the team
changes but its state and its threads' positions. -/
structure TeamStopped (s s' : State) (t : Turn) (m : Team) (cause pc addr : Word) : Prop where
  turn : s'.turn = none
  parked : s'.parked = s.parked.filter (fun q => !(q.turn.core == t.core && q.turn.tr == t.tr))
  rest : { s' with cores := s.cores, dies := s.dies, turn := s.turn, parked := s.parked } = s
  memory : SameMemory s s'
  cores : ∀ c, c ≠ t.core → s'.core c = s.core c
  dies : ∀ d, d ≠ dieOf t.core → s'.die d = s.die d
  locks : s'.die (dieOf t.core) = (s.die (dieOf t.core)).releaseLocks (fun w => w.core == t.core && w.tr == t.tr)
  teams : ∀ r, r ≠ t.tr → s'.team t.core r = s.team t.core r
  team : ∃ m', s'.team t.core t.tr = some m' ∧ { m' with groups := m.groups, state := m.state } = m ∧
    m'.state = .stopped cause pc addr s.tick ∧ m'.groups.length = m.groups.length ∧
    ∀ (k : Nat) (g0 : Group), m.groups[k]? = some g0 → ∃ g', m'.groups[k]? = some g' ∧ { g' with threads := g0.threads } = g0 ∧
      g'.threads.length = g0.threads.length ∧ ∀ (l : Nat) (th : Thread), g0.threads[l]? = some th → ∃ th', g'.threads[l]? = some th' ∧
        { th' with pc := th.pc, pos := th.pos, unchecked := th.unchecked } = th
  engine : (s'.core t.core).engine = (s.core t.core).engine.filter (fun o => o.tr != t.tr)

end Sys2Proof.Machine
end

