-- ==== Sys2Proof/Certificates/Slice0/Obligations.lean ====
section
/-!
DEFINITION. Obligations: the statements for the provers. The tables and relations before each group say, in the terms of spec/, what the
statements of the group claim; `Ready`, `Executes`, `TouchesOnly` and the other shared notions are in Sys2Proof/Safety.lean.
-/

namespace Sys2Proof.Machine

/-! ### Integer instructions (R85 to R95, R105, R108) -/

/-- An integer instruction on the registers D, A, B at width code `w`: its result per sub-element from SAT and the elements of A, B and D. -/
structure IntRow where
  d : BitVec 7
  a : BitVec 7
  b : BitVec 7
  w : BitVec 2
  val : Bool → (n : Nat) → BitVec n → BitVec n → BitVec n → BitVec n

/-- An exact signed value, clamped to the signed range under SAT, otherwise its low bits (R86). -/
def satSigned (sat : Bool) (n : Nat) (v : Int) : BitVec n :=
  BitVec.ofInt n (if sat then min (max v (-(2 ^ (n - 1) : Nat))) ((2 ^ (n - 1) : Nat) - 1) else v)

/-- An exact value, clamped to the natural range under SAT, otherwise its low bits (R93). -/
def satNatural (sat : Bool) (n : Nat) (v : Int) : BitVec n :=
  BitVec.ofInt n (if sat then min (max v 0) ((2 ^ n : Nat) - 1) else v)

/-- The results of R86. -/
def intRow : Instr → Option IntRow
  | .iadd d a b w => some ⟨d, a, b, w, fun sat n x y _ => satSigned sat n (x.toInt + y.toInt)⟩
  | .isub d a b w => some ⟨d, a, b, w, fun sat n x y _ => satSigned sat n (x.toInt - y.toInt)⟩
  | .imul d a b w => some ⟨d, a, b, w, fun sat n x y _ => satSigned sat n (x.toInt * y.toInt)⟩
  | .imulh d a b w => some ⟨d, a, b, w, fun _ n x y _ => BitVec.ofInt n (x.toInt * y.toInt / 2 ^ n)⟩
  | .imulhn d a b w => some ⟨d, a, b, w, fun _ n x y _ => BitVec.ofNat n (x.toNat * y.toNat / 2 ^ n)⟩
  | .imad d a b w => some ⟨d, a, b, w, fun _ _ x y z => x * y + z⟩
  | .imin d a b w => some ⟨d, a, b, w, fun _ _ x y _ => if x.toInt ≤ y.toInt then x else y⟩
  | .imax d a b w => some ⟨d, a, b, w, fun _ _ x y _ => if x.toInt ≤ y.toInt then y else x⟩
  | .iminn d a b w => some ⟨d, a, b, w, fun _ _ x y _ => if x ≤ y then x else y⟩
  | .imaxn d a b w => some ⟨d, a, b, w, fun _ _ x y _ => if x ≤ y then y else x⟩
  | .shl d a b w => some ⟨d, a, b, w, fun _ n x y _ => x <<< (y.toNat % n)⟩
  | .shr d a b w => some ⟨d, a, b, w, fun _ n x y _ => x >>> (y.toNat % n)⟩
  | .sar d a b w => some ⟨d, a, b, w, fun _ n x y _ => x.sshiftRight (y.toNat % n)⟩
  | .rol d a b w => some ⟨d, a, b, w, fun _ _ x y _ => x.rotateLeft y.toNat⟩
  | .ror d a b w => some ⟨d, a, b, w, fun _ _ x y _ => x.rotateRight y.toNat⟩
  | _ => none

/-- The natural forms of R93. -/
def naturalRow : Instr → Option IntRow
  | .iaddNatural d a b w => some ⟨d, a, b, w, fun sat n x y _ => satNatural sat n ((x.toNat : Int) + y.toNat)⟩
  | .isubNatural d a b w => some ⟨d, a, b, w, fun sat n x y _ => satNatural sat n ((x.toNat : Int) - y.toNat)⟩
  | .imulNatural d a b w => some ⟨d, a, b, w, fun sat n x y _ => satNatural sat n ((x.toNat : Int) * y.toNat)⟩
  | _ => none

/-- The integer divisions (R54, R108): D is the dividend and A the divisor; a zero divisor gives all ones and the dividend. -/
def divideRow : Instr → Option IntRow
  | .idivSigned d a _ w => some ⟨d, a, d, w, fun _ n x _ z => if x = 0 then BitVec.allOnes n else BitVec.ofInt n (z.toInt.tdiv x.toInt)⟩
  | .idivNatural d a _ w => some ⟨d, a, d, w, fun _ n x _ z => if x = 0 then BitVec.allOnes n else z / x⟩
  | .iremSigned d a _ w => some ⟨d, a, d, w, fun _ n x _ z => if x = 0 then z else BitVec.ofInt n (z.toInt.tmod x.toInt)⟩
  | .iremNatural d a _ w => some ⟨d, a, d, w, fun _ _ x _ z => if x = 0 then z else z % x⟩
  | _ => none

/-- An integer instruction completes: D takes the row's result in every active sub-element, and nothing else changes. -/
def IntRow.Completes (k : IntRow) (i : Instr) (s : State) (t : Turn) (g : Group) : Prop :=
  Executes i s t g [k.d.toNat] [] (fun c th' => SameFlags c.th th' ∧
    WritesEls (wCount k.w.toNat) (wWidth k.w.toNat) c.m.guard (c.th.rd k.d) (th'.reg (c.th.ix k.d.toNat)) (fun j =>
      k.val c.m.sat (wWidth k.w.toNat) (elem _ (c.th.rd k.a) j) (elem _ (c.th.rd k.b) j) (elem _ (c.th.rd k.d) j)))

/-- A one-source instruction at width code W3. -/
structure UnaryRow where
  d : BitVec 7
  a : BitVec 7
  w : BitVec 3
  val : Bool → (n : Nat) → BitVec n → BitVec n

/-- Number of one bits of the low n. -/
def onesBelow (x : Nat) : Nat → Nat
  | 0 => 0
  | n + 1 => onesBelow x n + (x.testBit n).toNat

/-- The results of R92. -/
def unaryRow : Instr → Option UnaryRow
  | .ineg d a nat w => some ⟨d, a, w, fun sat n x =>
      if nat = 1 then (if sat then 0 else -x) else (if sat then satSigned true n (-x.toInt) else -x)⟩
  | .iabs d a nat w => some ⟨d, a, w, fun sat n x => if nat = 1 then x else satSigned sat n x.toInt.natAbs⟩
  | .popc d a w => some ⟨d, a, w, fun _ n x => BitVec.ofNat n (onesBelow x.toNat n)⟩
  | .clz d a w => some ⟨d, a, w, fun _ _ x => x.clz⟩
  | .ctz d a w => some ⟨d, a, w, fun _ _ x => x.ctz⟩
  | .brev d a w => some ⟨d, a, w, fun _ _ x => x.reverse⟩
  | _ => none

/-- A 64-bit instruction without a width field (R84): its destination and its result. -/
structure WordRow where
  d : BitVec 7
  val : LaneCtx → Word

/-- Bits [top - 1 : pos] of a word, as a word (R93). -/
def fieldOf (signed : Bool) (x : Word) (pos len : Nat) : Word :=
  let n := min (pos + len) 64 - pos
  if n = 0 then 0 else if signed then (x.extractLsb' pos n).signExtend 64 else (x.extractLsb' pos n).setWidth 64

/-- A word with bits [top - 1 : pos] replaced by the low bits of another (R93). -/
def fieldInto (d a : Word) (pos len : Nat) : Word :=
  BitVec.ofBoolListLE ((List.range 64).map (fun j => if pos ≤ j ∧ j < min (pos + len) 64 then a.getLsbD (j - pos) else d.getLsbD j))

/-- Byte k of the 16-byte string of the bytes of A and then of B (R93). -/
def byteOfPair (a b : Word) (k : Nat) : BitVec 8 := if k < 8 then elem 8 a k else elem 8 b (k - 8)

/-- PRMB (R93). -/
def permuted (d a b : Word) : Word :=
  byteOfPair a b (elem 4 d 7).toNat ++ byteOfPair a b (elem 4 d 6).toNat ++ byteOfPair a b (elem 4 d 5).toNat ++
    byteOfPair a b (elem 4 d 4).toNat ++ byteOfPair a b (elem 4 d 3).toNat ++ byteOfPair a b (elem 4 d 2).toNat ++
    byteOfPair a b (elem 4 d 1).toNat ++ byteOfPair a b (elem 4 d 0).toNat

/-- The 64-bit results of R93 and R94. -/
def wordRow : Instr → Option WordRow
  | .and d a b => some ⟨d, fun c => c.th.rd a &&& c.th.rd b⟩
  | .or d a b => some ⟨d, fun c => c.th.rd a ||| c.th.rd b⟩
  | .xor d a b => some ⟨d, fun c => c.th.rd a ^^^ c.th.rd b⟩
  | .andn d a b => some ⟨d, fun c => c.th.rd a &&& ~~~ c.th.rd b⟩
  | .not d a => some ⟨d, fun c => ~~~ c.th.rd a⟩
  | .mov d a => some ⟨d, fun c => c.th.rd a⟩
  | .prmb d a b => some ⟨d, fun c => permuted (c.th.rd d) (c.th.rd a) (c.th.rd b)⟩
  | .bfxNatural d a b => some ⟨d, fun c =>
      fieldOf false (c.th.rd a) ((c.th.rd b).extractLsb' 0 6).toNat ((c.th.rd b).extractLsb' 8 6).toNat⟩
  | .bfxSigned d a b => some ⟨d, fun c =>
      fieldOf true (c.th.rd a) ((c.th.rd b).extractLsb' 0 6).toNat ((c.th.rd b).extractLsb' 8 6).toNat⟩
  | .bfi d a b => some ⟨d, fun c =>
      fieldInto (c.th.rd d) (c.th.rd a) ((c.th.rd b).extractLsb' 0 6).toNat ((c.th.rd b).extractLsb' 8 6).toNat⟩
  | .lea d a b k => some ⟨d, fun c => c.th.rd a + c.th.rd b * BitVec.ofNat 64 (2 ^ k.toNat)⟩
  | .p2g d a => some ⟨d, fun c => (c.th.pred a.toNat).zeroExtend 64⟩
  | _ => none

/-- The immediate forms (R95). -/
def immediateRow : Instr → Option WordRow
  | .addi d a i => some ⟨d, fun c => satSigned c.m.sat 64 ((c.th.rd a).toInt + i.toInt)⟩
  | .andImmediate d a i => some ⟨d, fun c => c.th.rd a &&& i.zeroExtend 64⟩
  | .orImmediate d a i => some ⟨d, fun c => c.th.rd a ||| i.zeroExtend 64⟩
  | .xorImmediate d a i => some ⟨d, fun c => c.th.rd a ^^^ i.zeroExtend 64⟩
  | .andnImmediate d a i => some ⟨d, fun c => c.th.rd a &&& ~~~ i.zeroExtend 64⟩
  | .shlImmediate d a k => some ⟨d, fun c => c.th.rd a <<< k.toNat⟩
  | .shrImmediate d a k => some ⟨d, fun c => c.th.rd a >>> k.toNat⟩
  | .sarImmediate d a k => some ⟨d, fun c => (c.th.rd a).sshiftRight k.toNat⟩
  | .rolImmediate d a k => some ⟨d, fun c => (c.th.rd a).rotateLeft k.toNat⟩
  | .rorImmediate d a k => some ⟨d, fun c => (c.th.rd a).rotateRight k.toNat⟩
  | .bfxImmediateNatural d a l p => some ⟨d, fun c => fieldOf false (c.th.rd a) p.toNat (l.toNat + 1)⟩
  | .bfxImmediateSigned d a l p => some ⟨d, fun c => fieldOf true (c.th.rd a) p.toNat (l.toNat + 1)⟩
  | .lui d i => some ⟨d, fun _ => i.signExtend 64 * 0x1000⟩
  | _ => none

/-- A 64-bit instruction completes: D takes the row's result where guard bit 0 is set, and nothing else changes (R14, R84). -/
def WordRow.Completes (k : WordRow) (i : Instr) (s : State) (t : Turn) (g : Group) : Prop :=
  Executes i s t g [k.d.toNat] [] (fun c th' => SameFlags c.th th' ∧
    th'.reg (c.th.ix k.d.toNat) = if c.m.guard.getLsbD 0 then k.val c else c.th.rd k.d)

/-- Sub-elements that bit j of a predicate stands for, of S (R18, R19). -/
def predSources (S j : Nat) : List Nat := if S = 16 then [2 * j, 2 * j + 1] else [j % S]

/-- A predicate written at S sub-elements (R19): bit j takes the AND of the results it stands for where they are active, and keeps its old
value elsewhere; a write to p0 is discarded. -/
def WritesPred (S : Nat) (guard : Byte) (p : Nat) (th th' : Thread) (r : Nat → Bool) : Prop :=
  ∀ j, j < 8 → (th'.pred p).getLsbD j =
    if p = 0 then true else if onEl guard S (predSources S j).head! then (predSources S j).all r else (th.pred p).getLsbD j

/-- The conditions of R87. -/
def condHolds (cc : BitVec 3) {n : Nat} (x y : BitVec n) : Bool :=
  match cc with
  | 0 => x == y
  | 1 => x != y
  | 2 => decide (x.toInt < y.toInt)
  | 3 => decide (x.toInt ≤ y.toInt)
  | 4 => decide (y.toInt < x.toInt)
  | 5 => decide (y.toInt ≤ x.toInt)
  | 6 => decide (x < y)
  | 7 => decide (y ≤ x)

/-- The predicate operations of R94. -/
def predRow : Instr → Option (BitVec 4 × (LaneCtx → Byte))
  | .pand d a b => some (d, fun c => c.th.pred a.toNat &&& c.th.pred b.toNat)
  | .por d a b => some (d, fun c => c.th.pred a.toNat ||| c.th.pred b.toNat)
  | .pxor d a b => some (d, fun c => c.th.pred a.toNat ^^^ c.th.pred b.toNat)
  | .pnot d a => some (d, fun c => ~~~ c.th.pred a.toNat)
  | .g2p d a => some (d, fun c => (c.th.rd a).truncate 8)
  | _ => none

/-- One sub-element with a carry in (R90): its result and the carry out. -/
def carryRow : Instr → Option (BitVec 7 × BitVec 7 × BitVec 3 × BitVec 4 × ((n : Nat) → BitVec n → BitVec n → Bool → BitVec n × Bool))
  | .iaddc d a w p => some (d, a, w, p, fun n z x k => (z + x + BitVec.ofNat n k.toNat, decide (2 ^ n ≤ z.toNat + x.toNat + k.toNat)))
  | .isubb d a w p => some (d, a, w, p, fun n z x k => (z - x - BitVec.ofNat n k.toNat, decide (z.toNat < x.toNat + k.toNat)))
  | _ => none

end Sys2Proof.Machine

section
open Sys2Proof Sys2Proof.Machine

/-- The fifteen register forms of INT compute as R86 says. -/
def Sys2Proof.Claims.IntegerArithmetic : Prop :=
  ∀ (i : Instr) (k : IntRow) (s : State) (t : Turn) (m : Team) (g : Group), intRow i = some k → Ready i s t m g → k.Completes i s t g

/-- The natural forms of IADD, ISUB and IMUL compute as R93 says. -/
def Sys2Proof.Claims.NaturalArithmetic : Prop :=
  ∀ (i : Instr) (k : IntRow) (s : State) (t : Turn) (m : Team) (g : Group), naturalRow i = some k → Ready i s t m g → k.Completes i s t g

/-- Integer division and remainder compute as R54 and R108 say; a zero divisor is no trap. -/
def Sys2Proof.Claims.IntegerDivision : Prop :=
  ∀ (i : Instr) (k : IntRow) (s : State) (t : Turn) (m : Team) (g : Group), divideRow i = some k → Ready i s t m g → k.Completes i s t g

/-- INEG, IABS, POPC, CLZ, CTZ and BREV compute as R92 says. -/
def Sys2Proof.Claims.UnaryIntegers : Prop :=
  ∀ (i : Instr) (k : UnaryRow) (s : State) (t : Turn) (m : Team) (g : Group), unaryRow i = some k → k.w.toNat ≤ 4 → Ready i s t m g →
    Executes i s t g [k.d.toNat] [] (fun c th' => SameFlags c.th th' ∧
      WritesEls (wCount k.w.toNat) (wWidth k.w.toNat) c.m.guard (c.th.rd k.d) (th'.reg (c.th.ix k.d.toNat)) (fun j =>
        k.val c.m.sat (wWidth k.w.toNat) (elem _ (c.th.rd k.a) j)))

/-- The 64-bit logical, move, permute, bit-field, address and P2G instructions compute as R93 and R94 say. -/
def Sys2Proof.Claims.WordOperations : Prop :=
  ∀ (i : Instr) (k : WordRow) (s : State) (t : Turn) (m : Team) (g : Group), wordRow i = some k → Ready i s t m g → k.Completes i s t g

/-- The immediate forms compute as R95 says. -/
def Sys2Proof.Claims.ImmediateForms : Prop :=
  ∀ (i : Instr) (k : WordRow) (s : State) (t : Turn) (m : Team) (g : Group), immediateRow i = some k → Ready i s t m g → k.Completes i s t g

/-- SEL takes A where the predicate bit of an active sub-element is 1 and keeps D elsewhere (R93). -/
def Sys2Proof.Claims.Select : Prop :=
  ∀ (d a : BitVec 7) (w : BitVec 3) (p : BitVec 4) (s : State) (t : Turn) (m : Team) (g : Group), w.toNat ≤ 4 → Ready (.sel d a w p) s t m g →
    Executes (.sel d a w p) s t g [d.toNat] [] (fun c th' => SameFlags c.th th' ∧
      WritesEls (wCount w.toNat) (wWidth w.toNat) (c.m.guard &&& c.th.pred p.toNat) (c.th.rd d) (th'.reg (c.th.ix d.toNat))
        (elem _ (c.th.rd a)))

/-- ICMP and CMPI write their predicate from the conditions of R87. -/
def Sys2Proof.Claims.IntegerCompare : Prop :=
  (∀ (cc : BitVec 3) (p : BitVec 4) (a b : BitVec 7) (w : BitVec 2) (s : State) (t : Turn) (m : Team) (g : Group),
    Ready (.icmp cc p a b w) s t m g →
      Executes (.icmp cc p a b w) s t g [] [p.toNat] (fun c th' => SameFlags c.th th' ∧
        WritesPred (wCount w.toNat) c.m.guard p.toNat c.th th' (fun j =>
          condHolds cc (elem (wWidth w.toNat) (c.th.rd a) j) (elem (wWidth w.toNat) (c.th.rd b) j)))) ∧
  (∀ (cc : BitVec 3) (p : BitVec 4) (a : BitVec 7) (k : BitVec 13) (s : State) (t : Turn) (m : Team) (g : Group),
    Ready (.cmpi cc p a k) s t m g →
      Executes (.cmpi cc p a k) s t g [] [p.toNat] (fun c th' => SameFlags c.th th' ∧
        WritesPred 1 c.m.guard p.toNat c.th th' (fun _ => condHolds cc (c.th.rd a) (k.signExtend 64))))

/-- PAND, POR, PXOR, PNOT and G2P write each bit of their predicate that the guard leaves on; p0 keeps reading all ones (R94). -/
def Sys2Proof.Claims.PredicateOperations : Prop :=
  ∀ (i : Instr) (d : BitVec 4) (v : LaneCtx → Byte) (s : State) (t : Turn) (m : Team) (g : Group), predRow i = some (d, v) →
    Ready i s t m g → Executes i s t g [] [d.toNat] (fun c th' => SameFlags c.th th' ∧
      ∀ j, j < 8 → (th'.pred d.toNat).getLsbD j =
        if d = 0 then true else if c.m.guard.getLsbD j then (v c).getLsbD j else (c.th.pred d.toNat).getLsbD j)

/-- IADDC and ISUBB carry in each sub-element (R90), and WMACL and WMACH over the whole word (R91). -/
def Obligations.CarryChains : Prop :=
  (∀ (i : Instr) (d a : BitVec 7) (w : BitVec 3) (p : BitVec 4) (f : (n : Nat) → BitVec n → BitVec n → Bool → BitVec n × Bool)
      (s : State) (t : Turn) (m : Team) (g : Group), carryRow i = some (d, a, w, p, f) → w.toNat ≤ 3 → Ready i s t m g →
    Executes i s t g [d.toNat] [p.toNat] (fun c th' => SameFlags c.th th' ∧
      let r := fun j => f (wWidth w.toNat) (elem _ (c.th.rd d) j) (elem _ (c.th.rd a) j) ((c.th.pred p.toNat).getLsbD j)
      WritesEls (wCount w.toNat) (wWidth w.toNat) c.m.guard (c.th.rd d) (th'.reg (c.th.ix d.toNat)) (fun j => (r j).1) ∧
      WritesPred (wCount w.toNat) c.m.guard p.toNat c.th th' (fun j => (r j).2))) ∧
  (∀ (high : Bool) (d a b : BitVec 7) (p : BitVec 3) (s : State) (t : Turn) (m : Team) (g : Group),
    let i : Instr := if high then .wmach d a b p else .wmacl d a b p
    Ready i s t m g → Executes i s t g [d.toNat] [8 + p.toNat] (fun c th' => SameFlags c.th th' ∧
      let prod : BitVec 128 := (c.th.rd a).zeroExtend 128 * (c.th.rd b).zeroExtend 128
      let h : Word := if high then prod.extractLsb' 64 64 else prod.extractLsb' 0 64
      let v : BitVec 65 := h.zeroExtend 65 + (c.th.rd d).zeroExtend 65 + BitVec.ofNat 65 ((c.th.pred (8 + p.toNat)).getLsbD 0).toNat
      if c.m.guard.getLsbD 0 then
        th'.reg (c.th.ix d.toNat) = v.extractLsb' 0 64 ∧ th'.pred (8 + p.toNat) = if v.getLsbD 64 then 0xFF else 0x00
      else th'.reg (c.th.ix d.toNat) = c.th.rd d ∧ th'.pred (8 + p.toNat) = c.th.pred (8 + p.toNat)))

end

namespace Sys2Proof.Machine

/-! ### Floating-point instructions (R96 to R107) -/

/-- The random word of the element of rank r (R43): with `steps` the generator steps once before each element. -/
def randomAt (steps : Bool) (seed : Word) (r : Nat) : Nat := if steps then seedRnd (seedAfter (r + 1) seed) else seedRnd seed

/-- D written at element width n, from element `base` on, by an instruction that rounds S sub-elements (R43, R97, R101): `f` gives the bits
and the flags of each active one from its random word, in ascending order; the flags are ORed together, and with `steps` the generator has
stepped once for each. -/
structure Rounded (s : State) (t : Turn) (S n base : Nat) (d : BitVec 7) (steps : Bool) (f : Nat → Nat → Nat × FFlags) (c : LaneCtx)
    (th' : Thread) : Prop where
  els : ∀ j, n * j + n ≤ 64 → elem n (th'.reg (c.th.ix d.toNat)) j =
    if base ≤ j ∧ j < base + S ∧ onEl c.m.guard S (j - base) then
      BitVec.ofNat n (f (randomAt steps c.th.seed (rankOf S c.m.guard (j - base))) (j - base)).1
    else elem n (c.th.rd d) j
  flags : Raises s t (((List.range S).filter (onEl c.m.guard S)).foldl (fun fl k =>
    fl ||| (f (randomAt steps c.th.seed (rankOf S c.m.guard k)) k).2) 0) c.th th'
  seed : th'.seed = if steps then seedAfter (rankOf S c.m.guard S) c.th.seed else c.th.seed

/-- No lane works under NFT (R52). -/
def NoNft (t : Turn) (g : Group) : Prop := ∀ c ∈ issueLanes t g, c.m.nft = false

/-- An instruction of FPA (R96): type, D, A, B, whether D is read, and the exact value with its flags. -/
structure FpRow where
  t : BitVec 2
  d : BitVec 7
  a : BitVec 7
  b : BitVec 7
  useD : Bool
  val : Bool → Exact → Exact → Exact → Exact × FFlags

/-- The exact values of R96; the flag argument says that the mode is RDN, which signs an exact zero sum. -/
def fpRow : Instr → Option FpRow
  | .fadd d a b t => some ⟨t, d, a, b, false, fun rdn x y _ => exactAdd rdn x y⟩
  | .fsub d a b t => some ⟨t, d, a, b, false, fun rdn x y _ => exactAdd rdn x (exactNeg y)⟩
  | .fmul d a b t => some ⟨t, d, a, b, false, fun _ x y _ => exactMul x y⟩
  | .ffma d a b t => some ⟨t, d, a, b, true, fun rdn x y z =>
      ((exactAdd rdn (exactMul x y).1 z).1, (exactMul x y).2 ||| (exactAdd rdn (exactMul x y).1 z).2)⟩
  | .ffms d a b t => some ⟨t, d, a, b, true, fun rdn x y z =>
      ((exactAdd rdn (exactMul x y).1 (exactNeg z)).1, (exactMul x y).2 ||| (exactAdd rdn (exactMul x y).1 (exactNeg z)).2)⟩
  | .fnma d a b t => some ⟨t, d, a, b, true, fun rdn x y z =>
      ((exactAdd rdn (exactNeg (exactMul x y).1) z).1, (exactMul x y).2 ||| (exactAdd rdn (exactNeg (exactMul x y).1) z).2)⟩
  | _ => none

/-- One element of an instruction of FPA: operands read under FTZ, the exact value rounded once, the flags of all three (R97). -/
def FpRow.elem (k : FpRow) (c : LaneCtx) (rnd j : Nat) : Nat × FFlags :=
  let T := Fmt.ofFt k.t
  let r : Rounding := { rm := c.m.rm, sat := c.m.sat, ftz := c.m.ftz, rnd := rnd, srcUnit := none }
  let x := T.read c.m.ftz (el T.width (c.th.rd k.a) j)
  let y := T.read c.m.ftz (el T.width (c.th.rd k.b) j)
  let z := if k.useD then T.read c.m.ftz (el T.width (c.th.rd k.d) j) else (.fin false 0 0, 0)
  let v := k.val (c.m.rm == 2) x.1.toExact y.1.toExact z.1.toExact
  ((T.round r v.1).1, x.2 ||| y.2 ||| z.2 ||| v.2 ||| (T.round r v.1).2)

/-- FABS, FNEG and FCPS (R98): the new sign bit of sub-element j. -/
def signRow : Instr → Option (BitVec 2 × BitVec 7 × BitVec 7 × (LaneCtx → Nat → Bool))
  | .fabs d a t => some (t, d, a, fun _ _ => false)
  | .fneg d a t => some (t, d, a, fun c j => !(elem (Fmt.ofFt t).width (c.th.rd a) j).msb)
  | .fcps d a b t => some (t, d, a, fun c j => (elem (Fmt.ofFt t).width (c.th.rd b) j).msb)
  | _ => none

/-- A NaN encoding of a format that R32 gives infinities: an exponent field of ones and a non-zero fraction. -/
def isNaN (T : Fmt) (x : BitVec T.width) : Bool :=
  (x.extractLsb' T.frac T.expBits == BitVec.allOnes T.expBits) && (x.extractLsb' 0 T.frac != 0)

/-- The relation that a condition of FCMP asks of two values (R99): `o` is their order, none when one is a NaN. -/
def floatRelation (cc : BitVec 3) (o : Option Ordering) : Bool :=
  match cc with
  | 0 => o == some .eq
  | 1 => !(o == some .eq)
  | 2 => o == some .lt
  | 3 => o == some .lt || o == some .eq
  | 4 => o == some .gt
  | 5 => o == some .gt || o == some .eq
  | 6 => o == none
  | 7 => o != none

/-- The class bit of an encoding (R99). -/
def classBit (T : Fmt) (x : BitVec T.width) : Nat :=
  if isNaN T x then (if x.getLsbD (T.frac - 1) then 1 else 0)
  else if x.extractLsb' T.frac T.expBits == BitVec.allOnes T.expBits then 2
  else if x.extractLsb' T.frac T.expBits != 0 then 3
  else if x.extractLsb' 0 T.frac != 0 then 4 else 5

/-- A rational that every number of up to 150 significant bits compares with as it does with the square root of num x 2^exp: rounding it once
is rounding the root once, as no format or random word distinguishes more bits. -/
def IsRoot (num : Nat) (exp : Int) (v : Exact) : Prop :=
  ∃ (p q : Nat) (e : Int), v = .rat false p q e ∧ 0 < q ∧ ∀ (n : Nat) (k : Int), n < 2 ^ 150 →
    let x : ℚ := n * (2 : ℚ) ^ k
    let r : ℚ := p / q * (2 : ℚ) ^ e
    (x < r ↔ x * x < num * (2 : ℚ) ^ exp) ∧ (x = r ↔ x * x = num * (2 : ℚ) ^ exp)

/-- What FSQRT rounds (R107). -/
def rootOf (root : Nat → Int → Exact) : FVal → Exact × FFlags
  | .nan _ => (.nan, 0)
  | .inf neg => if neg then (.nan, flagIV) else (.inf false, 0)
  | .fin neg num exp => if num = 0 then (.rat neg 0 1 0, 0) else if neg then (.nan, flagIV) else (root num exp, 0)

/-- The approximate functions with their codes (R105). -/
def sfuRow : Instr → Option (Nat × BitVec 7 × BitVec 7 × BitVec 2)
  | .exp2 d a _ t => some (2, d, a, t)
  | .log2 d a _ t => some (3, d, a, t)
  | .rcp d a _ t => some (4, d, a, t)
  | .rsq d a _ t => some (5, d, a, t)
  | .sin d a _ t => some (6, d, a, t)
  | .cos d a _ t => some (7, d, a, t)
  | .tanh d a _ t => some (8, d, a, t)
  | .sigm d a _ t => some (9, d, a, t)
  | .sftp d a _ t => some (10, d, a, t)
  | _ => none

/-- The results at infinities (R107), as the exact value and the flag. -/
def sfuAtInf (code : Nat) (neg : Bool) : Exact × FFlags :=
  match code with
  | 2 => (if neg then .rat false 0 1 0 else .inf false, 0)
  | 3 => if neg then (.nan, flagIV) else (.inf false, 0)
  | 4 => (.rat neg 0 1 0, 0)
  | 5 => if neg then (.nan, flagIV) else (.rat false 0 1 0, 0)
  | 6 | 7 => (.nan, flagIV)
  | 8 => (.rat neg 1 1 0, 0)
  | 9 => (.rat false (if neg then 0 else 1) 1 0, 0)
  | _ => (if neg then .rat false 0 1 0 else .inf false, 0)

/-- The results at zeros (R107), where they are exact. -/
def sfuAtZero (code : Nat) (neg : Bool) : Option (Exact × FFlags) :=
  match code with
  | 2 | 7 => some (.rat false 1 1 0, 0)
  | 3 => some (.inf true, flagDZ)
  | 4 | 5 => some (.inf neg, flagDZ)
  | 6 | 8 => some (.rat neg 0 1 0, 0)
  | 9 => some (.rat false 1 1 (-1), 0)
  | _ => none

end Sys2Proof.Machine

section
open Sys2Proof Sys2Proof.Machine

/-- FADD, FSUB, FMUL, FFMA, FFMS and FNMA read their operands under FTZ, form the exact value and round it once; in SR mode the generator
steps once per active sub-element (R43, R96, R97). -/
def Sys2Proof.Claims.FloatArithmetic : Prop :=
  ∀ (i : Instr) (k : FpRow) (s : State) (t : Turn) (m : Team) (g : Group), fpRow i = some k → Ready i s t m g → NoNft t g →
    Executes i s t g [k.d.toNat] [] (fun c th' =>
      Rounded s t (64 / (Fmt.ofFt k.t).width) (Fmt.ofFt k.t).width 0 k.d (c.m.rm == 5) (k.elem c) c th')

/-- FABS, FNEG and FCPS change the sign bit alone and give the canonical NaN for a NaN, whatever the modes (R98). -/
def Sys2Proof.Claims.FloatSigns : Prop :=
  ∀ (i : Instr) (ft : BitVec 2) (d a : BitVec 7) (sign : LaneCtx → Nat → Bool) (s : State) (t : Turn) (m : Team) (g : Group),
    signRow i = some (ft, d, a, sign) → Ready i s t m g →
    Executes i s t g [d.toNat] [] (fun c th' => SameFlags c.th th' ∧
      WritesEls (64 / (Fmt.ofFt ft).width) (Fmt.ofFt ft).width c.m.guard (c.th.rd d) (th'.reg (c.th.ix d.toNat)) (fun j =>
        let x := elem (Fmt.ofFt ft).width (c.th.rd a) j
        if isNaN (Fmt.ofFt ft) x then BitVec.ofNat _ (Fmt.ofFt ft).nanBits
        else BitVec.ofNat _ ((sign c j).toNat * 2 ^ ((Fmt.ofFt ft).width - 1) + x.toNat % 2 ^ ((Fmt.ofFt ft).width - 1))))

/-- FCMP compares under FTZ, with IV for a signalling NaN only; FCLASS classifies the raw encoding; FMIN and FMAX write the smaller or the
larger operand; none of them steps the generator or traps under NFT (R99). -/
def Sys2Proof.Claims.FloatCompare : Prop :=
  (∀ (cc : BitVec 3) (p : BitVec 4) (a b : BitVec 7) (ft : BitVec 2) (s : State) (t : Turn) (m : Team) (g : Group),
    Ready (.fcmp cc p a b ft) s t m g →
      Executes (.fcmp cc p a b ft) s t g [] [p.toNat] (fun c th' =>
        let T := Fmt.ofFt ft
        let x := fun j => T.read c.m.ftz (el T.width (c.th.rd a) j)
        let y := fun j => T.read c.m.ftz (el T.width (c.th.rd b) j)
        WritesPred (64 / T.width) c.m.guard p.toNat c.th th' (fun j => floatRelation cc ((x j).1.cmp (y j).1)) ∧ th'.seed = c.th.seed ∧
        Raises s t (((List.range (64 / T.width)).filter (onEl c.m.guard (64 / T.width))).foldl (fun fl j => fl ||| ((x j).2 ||| (y j).2)) 0)
          c.th th')) ∧
  (∀ (p : BitVec 4) (a msk : BitVec 7) (ft : BitVec 2) (s : State) (t : Turn) (m : Team) (g : Group),
    Ready (.fclass p a msk ft) s t m g →
      Executes (.fclass p a msk ft) s t g [] [p.toNat] (fun c th' => SameFlags c.th th' ∧
        WritesPred (64 / (Fmt.ofFt ft).width) c.m.guard p.toNat c.th th' (fun j =>
          let x := elem (Fmt.ofFt ft).width (c.th.rd a) j
          msk.getLsbD (classBit (Fmt.ofFt ft) x) && (!msk.getLsbD 6 || x.msb)))) ∧
  (∀ (isMax : Bool) (d a b : BitVec 7) (ft : BitVec 2) (s : State) (t : Turn) (m : Team) (g : Group),
    let i : Instr := if isMax then .fmax d a b ft else .fmin d a b ft
    Ready i s t m g →
      Executes i s t g [d.toNat] [] (fun c th' =>
        let T := Fmt.ofFt ft
        Rounded s t (64 / T.width) T.width 0 d false (fun _ j =>
          T.minMax c.m.ftz isMax (el T.width (c.th.rd a) j) (el T.width (c.th.rd b) j)) c th'))

/-- CVT converts its elements, in the sub-position that P names, stepping the generator in SR mode where a conversion rounds (R101, R102). -/
def Sys2Proof.Claims.Conversions : Prop :=
  ∀ (d a : BitVec 7) (p : BitVec 3) (sc dc : BitVec 4) (s : State) (t : Turn) (m : Team) (g : Group),
    let i : Instr := .cvt d a p sc dc
    let N := 64 / max (typeWidth sc) (typeWidth dc)
    i.wf → Ready i s t m g → NoNft t g →
    Executes i s t g [d.toNat] [] (fun c th' =>
      Rounded s t N (typeWidth dc) (if typeWidth dc ≤ typeWidth sc then p.toNat * N else 0) d
        (c.m.rm == 5 && ((Fmt.ofCode sc.toNat).isSome || (Fmt.ofCode dc.toNat).isSome)) (fun rnd k =>
          cvtElem { rm := c.m.rm, sat := c.m.sat, ftz := c.m.ftz, rnd := rnd, srcUnit := none } sc.toNat dc.toNat
            (el (typeWidth sc) (c.th.rd a) (if typeWidth dc ≤ typeWidth sc then k else p.toNat * N + k))) c th')

/-- SEED mixes the lane number into the generator, and RND steps it once and gives its high word (R104). -/
def Sys2Proof.Claims.Generator : Prop :=
  (∀ (a : BitVec 7) (s : State) (t : Turn) (m : Team) (g : Group), Ready (.seed a) s t m g →
    Executes (.seed a) s t g [] [] (fun c th' => th'.fflags = c.th.fflags ∧ th'.ffpc = c.th.ffpc ∧
      th'.seed = if c.m.guard.getLsbD 0 then c.th.rd a ^^^ (BitVec.ofNat 64 c.lane * 0x9E3779B97F4A7C15) else c.th.seed)) ∧
  (∀ (d : BitVec 7) (s : State) (t : Turn) (m : Team) (g : Group), Ready (.rnd d) s t m g →
    Executes (.rnd d) s t g [d.toNat] [] (fun c th' => th'.fflags = c.th.fflags ∧ th'.ffpc = c.th.ffpc ∧
      if c.m.guard.getLsbD 0 then
        th'.seed = c.th.seed * 0x5851F42D4C957F2D + 0x14057B7EF767814F ∧
          th'.reg (c.th.ix d.toNat) = (th'.seed.extractLsb' 32 32).zeroExtend 64
      else th'.seed = c.th.seed ∧ th'.reg (c.th.ix d.toNat) = c.th.rd d))

/-- FDIV and FSQRT form the exact quotient or root of operands read under FTZ and round it once; a negative operand of FSQRT gives NaN with IV and
-0 gives -0 (R105 to R107). An irrational root is rounded as a rational that stands to every number of up to 150 bits as the root does. -/
def Sys2Proof.Claims.DivideAndRoot : Prop :=
  ∃ root : Nat → Int → Exact, (∀ num exp, 0 < num → IsRoot num exp (root num exp)) ∧
  ∀ (isRoot : Bool) (d a : BitVec 7) (l : BitVec 4) (ft : BitVec 2) (s : State) (t : Turn) (m : Team) (g : Group),
    let i : Instr := if isRoot then .fsqrt d a l ft else .fdiv d a l ft
    Ready i s t m g → NoNft t g →
    Executes i s t g [d.toNat] [] (fun c th' =>
      let T := Fmt.ofFt ft
      Rounded s t (64 / T.width) T.width 0 d (c.m.rm == 5) (fun rnd j =>
        let r : Rounding := { rm := c.m.rm, sat := c.m.sat, ftz := c.m.ftz, rnd := rnd, srcUnit := none }
        let x := T.read c.m.ftz (el T.width (c.th.rd a) j)
        let y := T.read c.m.ftz (el T.width (c.th.rd d) j)
        let v := if isRoot then rootOf root x.1 else exactDiv y.1.toExact x.1.toExact
        ((T.round r v.1).1, (if isRoot then 0 else y.2) ||| x.2 ||| v.2 ||| (T.round r v.1).2)) c th')

/-- The approximate functions complete in every lane without stepping the generator, and give the results of R107 at NaNs, infinities and
zeros in the destination format. -/
def Sys2Proof.Claims.SpecialFunctions : Prop :=
  ∀ (i : Instr) (code : Nat) (d a : BitVec 7) (ft : BitVec 2) (s : State) (t : Turn) (m : Team) (g : Group),
    sfuRow i = some (code, d, a, ft) → Ready i s t m g → NoNft t g →
    Executes i s t g [d.toNat] [] (fun c th' =>
      let T := Fmt.ofFt ft
      let r : Rounding := { rm := 0, sat := c.m.sat, ftz := c.m.ftz, rnd := seedRnd c.th.seed, srcUnit := none }
      th'.seed = c.th.seed ∧
      ∀ j, j < 64 / T.width → onEl c.m.guard (64 / T.width) j →
        let y := elem T.width (th'.reg (c.th.ix d.toNat)) j
        match (T.read c.m.ftz (el T.width (c.th.rd a) j)).1 with
        | .nan _ => y = BitVec.ofNat _ T.nanBits
        | .inf neg => y = BitVec.ofNat _ (T.round r (sfuAtInf code neg).1).1 ∧ (sfuAtInf code neg).2 &&& ~~~ th'.fflags = 0
        | .fin neg num _ => num = 0 → ∀ v, sfuAtZero code neg = some v →
            y = BitVec.ofNat _ (T.round r v.1).1 ∧ v.2 &&& ~~~ th'.fflags = 0)

/-- Under NFT an instruction of FPA that would write a non-finite result in some lane takes the trap of R52 instead: code 0x07 with NF and the
lanes, at the instruction's own address, and no lane's registers, flags or generator change. -/
def Obligations.NonFiniteTrap : Prop :=
  ∀ (i : Instr) (k : FpRow) (s : State) (t : Turn) (m : Team) (g : Group), fpRow i = some k → Ready i s t m g → g.frame = none →
    m.env.handlers.getD g.role 0 ≠ 0 →
    let bad := (issueLanes t g).filter (fun c => c.m.nft &&
      (List.range (64 / (Fmt.ofFt k.t).width)).any (fun j => onEl c.m.guard (64 / (Fmt.ofFt k.t).width) j &&
        (Fmt.ofFt k.t).nonFinite (k.elem c (randomAt (c.m.rm == 5) c.th.seed (rankOf (64 / (Fmt.ofFt k.t).width) c.m.guard j)) j).1))
    bad ≠ [] → (∀ l ∈ t.lanes, l < g.threads.length) →
    ∃ s' m' g', exec i s = .next s' ∧ s'.team t.core t.tr = some m' ∧ m'.groups[t.grp]? = some g' ∧ s'.turn = none ∧
      (∃ fr, g'.frame = some fr ∧ fr.cause = trapCause 7 flagNF 0 (bad.map (·.lane)) ∧ fr.trappc = BitVec.ofNat 64 t.ipc ∧ fr.trapaddr = 0) ∧
      ∀ c ∈ issueLanes t g, ∃ th', g'.threads[c.lane]? = some th' ∧ th'.pc = BitVec.ofNat 64 (m.env.handlers.getD g.role 0) ∧
        (∀ r, r < 256 → th'.reg r = c.th.reg r) ∧ th'.preds = c.th.preds ∧ th'.fflags = c.th.fflags ∧ th'.seed = c.th.seed

end

namespace Sys2Proof.Machine

/-! ### Block quantisation and cross-lane instructions (R103, R109 to R115) -/

/-- The source elements of a CVTS: the flat block that element k of a lane belongs to (R103). -/
def blockOf (sc dc : BitVec 4) (lane : Nat) : Nat := lane * (64 / max (typeWidth sc) (typeWidth dc)) / 32

/-- The values that a lane's active elements read as, with their flags (R101, R103). -/
def quantValues (a : BitVec 7) (sc dc : BitVec 4) (c : LaneCtx) : List (Nat × FVal × FFlags) :=
  ((List.range (64 / max (typeWidth sc) (typeWidth dc))).filter (onEl c.m.guard (64 / max (typeWidth sc) (typeWidth dc)))).map (fun k =>
    (k, ((Fmt.ofCode sc.toNat).getD .fp32).read c.m.ftz (el (typeWidth sc) (c.th.rd a) k)))

/-- Whether a value is a NaN. -/
def FVal.isNan : FVal → Bool
  | .nan _ => true
  | _ => false

/-- The magnitude of a finite value as a rational; 0 for the others (R103). -/
def FVal.mag : FVal → ℚ
  | .fin _ num exp => num * (2 : ℚ) ^ exp
  | _ => 0

/-- The value of a finite S12 scale (R34). -/
def s12Rational (b : Nat) : Option ℚ := (s12Value b).map (fun v => v.1 * (2 : ℚ) ^ v.2)

/-- The scale that R103 chooses for a largest magnitude m and a largest code value L: 0 for m = 0, otherwise the smallest finite scale not
below m / L, or the largest finite scale when every one is below. -/
def IsScale (m : ℚ) (L : Nat) (b : Nat) : Prop :=
  if m = 0 then b = 0
  else b < 4096 ∧ ∃ v, s12Rational b = some v ∧ (m / L ≤ v ∨ b = 0xFEF) ∧ ∀ b' v', b' < 4096 → s12Rational b' = some v' → m / L ≤ v' → v ≤ v'

/-- The lane of an issue set with a number, when it is in it. -/
def laneIn (t : Turn) (g : Group) (lane : Nat) : Option LaneCtx := (issueLanes t g).find? (fun c => c.lane == lane)

/-- The source index of SHFL (R111), from the flat index e and the index x. -/
def shflIndex (mode : BitVec 2) (e x : Nat) : Int :=
  match mode with
  | 0 => x
  | 1 => (e : Int) - x
  | 2 => e + x
  | 3 => (e ^^^ x : Nat)

/-- What element i of lane c receives from SHFL (R111). -/
def shflTakes (t : Turn) (g : Group) (d a : BitVec 7) (mode : BitVec 2) (S n : Nat) (c : LaneCtx) (i : Nat) : BitVec n :=
  let src := shflIndex mode (c.lane * S + i) (elem n (c.th.rd d) i).toNat
  if 0 ≤ src ∧ src < 32 * S then
    match laneIn t g (src.toNat / S) with
    | some k => elem n (k.th.rd a) (src.toNat % S)
    | none => elem n (c.th.rd a) i
  else elem n (c.th.rd a) i

/-- The participants of a vote (R113). -/
def voters (t : Turn) (g : Group) : List LaneCtx := (issueLanes t g).filter (fun c => c.m.guard.getLsbD 0)

/-- The list of R48 that REDUCE and SCAN combine: lanes and sub-elements in ascending flat order. -/
def combineList (t : Turn) (g : Group) (S : Nat) : List (LaneCtx × Nat) :=
  (issueLanes t g).flatMap (fun c => ((List.range S).filter (onEl c.m.guard S)).map (fun k => (c, k)))

/-- The index at which the segment of element j starts (R115). -/
def segStart (head : Nat → Bool) : Nat → Nat
  | 0 => 0
  | j + 1 => if head (j + 1) then j + 1 else segStart head j

/-- The index at which the segment of element j ends, in a list of n (R115). -/
def segEnd (head : Nat → Bool) (n j : Nat) : Nat := ((List.range n).find? (fun k => decide (j < k) && head k)).getD n

/-- The width, the number of sub-elements and the combination of an operation of REDUCE and SCAN (R48, R109). -/
def combineOf (o : BitVec 4) (w : BitVec 2) (ftz : Bool) : Nat × Nat × Combine :=
  if o.toNat < 8 then (wCount w.toNat, wWidth w.toNat, intCombine o.toNat (wWidth w.toNat))
  else (64 / (Fmt.ofFt w).width, (Fmt.ofFt w).width, floatCombine o.toNat (Fmt.ofFt w) ftz)

/-- REDUCE and SCAN, with the list that the result of element j combines: from its segment's start, up to where. -/
def reduceRow : Instr → Option (BitVec 7 × BitVec 7 × BitVec 1 × BitVec 4 × BitVec 2 × ((Nat → Bool) → Nat → Nat → Nat))
  | .reduce d a sg o w _ => some (d, a, sg, o, w, segEnd)
  | .scanInclusive d a sg o w _ => some (d, a, sg, o, w, fun _ _ j => j + 1)
  | .scanExclusive d a sg o w _ => some (d, a, sg, o, w, fun _ _ j => j)
  | _ => none

end Sys2Proof.Machine

section
open Sys2Proof Sys2Proof.Machine

/-- CVTS gives every block with an active element its scale in D + 1, 0xFF0 where an active element is a NaN, and codes that are the elements
divided by the scale and rounded once; lanes without an active element keep both registers (R103). The unit that SR rounds a quotient by is
the model's reading (log 13). -/
def Obligations.BlockQuantise : Prop :=
  ∀ (d a : BitVec 7) (p : BitVec 3) (sc dc : BitVec 4) (s : State) (t : Turn) (m : Team) (g : Group),
    (Instr.cvts d a p sc dc).wf → Ready (.cvts d a p sc dc) s t m g → NoNft t g →
    Executes (.cvts d a p sc dc) s t g [d.toNat, d.toNat + 1] [] (fun c th' =>
      let N := 64 / max (typeWidth sc) (typeWidth dc)
      let D := (Fmt.ofCode dc.toNat).getD .e4m3
      let T := (Fmt.ofCode sc.toNat).getD .fp32
      let vals := ((issueLanes t g).filter (fun x => blockOf sc dc x.lane == blockOf sc dc c.lane)).flatMap (quantValues a sc dc)
      let nan := vals.any (fun v => v.2.1.isNan)
      if quantValues a sc dc c = [] then
        th'.reg (c.th.ix d.toNat) = c.th.rd d ∧ th'.reg (c.th.ix (d.toNat + 1)) = c.th.reg (c.th.ix (d.toNat + 1)) ∧ SameFlags c.th th'
      else ∃ b, IsScale (vals.foldl (fun q v => max q v.2.1.mag) 0) (scaledMax dc.toNat) b ∧
        th'.reg (c.th.ix (d.toNat + 1)) = BitVec.ofNat 64 (if nan then 0xFF0 else b) ∧
        (∀ j, typeWidth dc * j + typeWidth dc ≤ 64 → elem (typeWidth dc) (th'.reg (c.th.ix d.toNat)) j =
          if p.toNat * N ≤ j ∧ j < p.toNat * N + N ∧ onEl c.m.guard N (j - p.toNat * N) then
            let rnd := randomAt (c.m.rm == 5) c.th.seed (rankOf N c.m.guard (j - p.toNat * N))
            BitVec.ofNat _ (quantCode T D { rm := c.m.rm, sat := c.m.sat, ftz := c.m.ftz, rnd := rnd, srcUnit := none } b
              (T.read c.m.ftz (el (typeWidth sc) (c.th.rd a) (j - p.toNat * N)))).1
          else elem (typeWidth dc) (c.th.rd d) j) ∧
        th'.seed = if c.m.rm == 5 then seedAfter (rankOf N c.m.guard N) c.th.seed else c.th.seed)

/-- SHFL, BCAST, VOTE and MATCH read every active lane before they write, never a lane outside the issue set, and write only where the guard
allows (R110 to R114). -/
def Sys2Proof.Claims.LaneExchange : Prop :=
  (∀ (d a : BitVec 7) (mode : BitVec 2) (w : BitVec 3) (l : BitVec 4) (s : State) (t : Turn) (m : Team) (g : Group), w.toNat ≤ 4 →
    Ready (.shfl d a mode w l) s t m g →
      Executes (.shfl d a mode w l) s t g [d.toNat] [] (fun c th' => SameFlags c.th th' ∧
        WritesEls (wCount w.toNat) (wWidth w.toNat) c.m.guard (c.th.rd d) (th'.reg (c.th.ix d.toNat))
          (shflTakes t g d a mode (wCount w.toNat) (wWidth w.toNat) c))) ∧
  (∀ (d a : BitVec 7) (src : BitVec 5) (l : BitVec 4) (s : State) (t : Turn) (m : Team) (g : Group), Ready (.bcast d a src l) s t m g →
      Executes (.bcast d a src l) s t g [d.toNat] [] (fun c th' => SameFlags c.th th' ∧
        th'.reg (c.th.ix d.toNat) = match laneIn t g src.toNat with
          | some k => if c.m.guard.getLsbD 0 then k.th.rd a else c.th.rd d
          | none => c.th.rd d)) ∧
  (∀ (d a : BitVec 4) (kind : BitVec 2) (l : BitVec 4) (s : State) (t : Turn) (m : Team) (g : Group), kind ≠ 3 →
    Ready (.vote d a kind l) s t m g →
      Executes (.vote d a kind l) s t g [] [d.toNat] (fun c th' => SameFlags c.th th' ∧
        let bit := fun (x : LaneCtx) => (x.th.pred a.toNat).getLsbD 0
        let r : Prop := match kind with
          | 0 => ∃ x ∈ voters t g, bit x
          | 1 => ∀ x ∈ voters t g, bit x
          | _ => ∀ x ∈ voters t g, ∀ y ∈ voters t g, bit x = bit y
        if d = 0 ∨ c.m.guard.getLsbD 0 = false then th'.pred d.toNat = c.th.pred d.toNat
        else (r ∧ th'.pred d.toNat = 0xFF) ∨ (¬ r ∧ th'.pred d.toNat = 0x00))) ∧
  (∀ (d : BitVec 7) (a : BitVec 4) (l : BitVec 4) (s : State) (t : Turn) (m : Team) (g : Group), Ready (.voteBallot d a l) s t m g →
      Executes (.voteBallot d a l) s t g [d.toNat] [] (fun c th' => SameFlags c.th th' ∧
        ∀ j, j < 64 → (th'.reg (c.th.ix d.toNat)).getLsbD j =
          if c.m.guard.getLsbD 0 then decide (j < 32) && (voters t g).any (fun x => x.lane == j && (x.th.pred a.toNat).getLsbD 0)
          else (c.th.rd d).getLsbD j)) ∧
  (∀ (d a : BitVec 7) (l : BitVec 4) (s : State) (t : Turn) (m : Team) (g : Group), Ready (.matchLanes d a l) s t m g →
      Executes (.matchLanes d a l) s t g [d.toNat] [] (fun c th' => SameFlags c.th th' ∧
        ∀ j, j < 64 → (th'.reg (c.th.ix d.toNat)).getLsbD j =
          if c.m.guard.getLsbD 0 then decide (j < 32) && (issueLanes t g).any (fun x => x.lane == j && x.th.rd a == c.th.rd a)
          else (c.th.rd d).getLsbD j))

/-- REDUCE and SCAN combine the active sub-elements of their segment in ascending flat order by the tree of R48, write each active
sub-element its own result, and raise in each lane the flags of the lane's own results; inactive sub-elements keep their bits (R48, R115). -/
def Sys2Proof.Claims.ReduceAndScan : Prop :=
  ∀ (i : Instr) (d a : BitVec 7) (sg : BitVec 1) (o : BitVec 4) (w : BitVec 2) (upTo : (Nat → Bool) → Nat → Nat → Nat) (s : State) (t : Turn)
    (m : Team) (g : Group), reduceRow i = some (d, a, sg, o, w, upTo) → o.toNat ≤ 10 → t.lanes.Pairwise (· < ·) → Ready i s t m g →
    Executes i s t g [d.toNat] [] (fun c th' =>
      let S := (combineOf o w false).1
      let n := (combineOf o w false).2.1
      let L := combineList t g S
      let k := (combineOf o w ((L.head?.map (fun e => e.1.m.ftz)).getD false)).2.2
      let head := fun j => sg == 1 && ((L[j]?).map (fun e => elem n (e.1.th.rd d) e.2 != 0)).getD false
      let vals := fun j => ((L.take (upTo head L.length j)).drop (segStart head j)).map (fun e => k.leaf (el n (e.1.th.rd a) e.2))
      let res := fun j => if vals j = [] then k.ident else treeFold k.node k.ident (vals j).length (vals j)
      (∀ j e, L[j]? = some e → e.1.lane = c.lane → elem n (th'.reg (c.th.ix d.toNat)) e.2 = BitVec.ofNat n (res j).1) ∧
      (∀ j, n * j + n ≤ 64 → onEl c.m.guard S j = false ∨ S ≤ j → elem n (th'.reg (c.th.ix d.toNat)) j = elem n (c.th.rd d) j) ∧
      th'.seed = c.th.seed ∧
      Raises s t (((List.range L.length).filter (fun j => ((L[j]?).map (fun e => e.1.lane == c.lane)).getD false)).foldl
        (fun fl j => fl ||| (res j).2 ||| k.bad (res j).1) 0) c.th th')

end

namespace Sys2Proof.Machine

/-! ### Traps and control (R28 to R31, R59 to R65, R116 to R123) -/

/-- A lane is in handler mode: it has trapped and has not returned (R29, R31). -/
def Handles (g : Group) (lane : Nat) : Prop := ∃ fr sv, g.frame = some fr ∧ sv ∈ fr.saved ∧ sv.lane = lane ∧ sv.back = false

/-- A lane has returned from the trap that other lanes of its group still handle (R31). -/
def HasReturned (g : Group) (lane : Nat) : Prop := ∃ fr sv, g.frame = some fr ∧ sv ∈ fr.saved ∧ sv.lane = lane ∧ sv.back = true

/-- An instruction takes a trap of its whole issue set: handled where the role has a handler and the group is not in handler mode; of lanes
that have all returned it waits for the lanes that still handle theirs (the model's choice, log 23); and otherwise the team stops (R29 to R31). -/
def Traps (i : Instr) (s : State) (t : Turn) (m : Team) (g : Group) (f : LaneCtx → Thread) (cause pc addr : Word) : Prop :=
  let handled := m.env.handlers.getD g.role 0 ≠ 0
  (g.frame = none → handled → ∃ s', exec i s = .next s' ∧ TrapTaken s s' t m g f cause pc addr) ∧
  (handled → (g.frame ≠ none ∧ ∀ l ∈ t.lanes, HasReturned g l) → exec i s = .next ({ s with turn := none }.spend t.core 1)) ∧
  (¬ handled ∨ (g.frame ≠ none ∧ ∃ l ∈ t.lanes, ¬ HasReturned g l) → ∃ s', exec i s = .next s' ∧ ∃ m', s'.team t.core t.tr = some m' ∧
    s'.turn = none ∧ (m.state = .running → m'.state = .stopped cause pc addr s.tick))

/-- %trapcause (R28): CODE, FLAGS, DETAIL and LANES. -/
def IsCause (v : Word) (code : Nat) (flags : FFlags) (detail : Nat) (lanes : List Nat) : Prop :=
  v.extractLsb' 0 8 = BitVec.ofNat 8 code ∧ v.extractLsb' 8 6 = flags ∧ v.extractLsb' 14 2 = 0 ∧
    v.extractLsb' 16 16 = BitVec.ofNat 16 detail ∧ ∀ l, l < 32 → v.getLsbD (32 + l) = decide (l ∈ lanes)

/-- The lanes whose guard bit 0 is set: those that an instruction without sub-elements acts in (R14). -/
def actingLanes (t : Turn) (g : Group) : List LaneCtx := (issueLanes t g).filter (fun c => c.m.guard.getLsbD 0)

/-- A thread that a control instruction acts in changes by `f`; the others only move on. -/
def whereActing (t : Turn) (f : LaneCtx → Thread → Thread) (c : LaneCtx) : Thread :=
  if c.m.guard.getLsbD 0 then f c (c.th.stepped t.len) else c.th.stepped t.len

/-- The value of a special register (R22), for the numbers that the spec lists. -/
def SpecialIs (s : State) (t : Turn) (m : Team) (g : Group) (c : LaneCtx) (n : Nat) (v : Word) : Prop :=
  match n with
  | 0x00 => v = BitVec.ofNat 64 c.lane
  | 0x01 => v = BitVec.ofNat 64 t.grp
  | 0x02 => v = BitVec.ofNat 64 m.ids.team
  | 0x03 => v = BitVec.ofNat 64 t.core
  | 0x04 => v = BitVec.ofNat 64 (t.core / 48)
  | 0x05 => v = BitVec.ofNat 64 m.ids.clx
  | 0x06 => v = BitVec.ofNat 64 m.ids.cly
  | 0x07 => v = BitVec.ofNat 64 m.ids.cluster
  | 0x08 => v = BitVec.ofNat 64 m.ids.grid
  | 0x09 => v = BitVec.ofNat 64 (m.ids.task * 16 + m.ids.slot)
  | 0x0A => v = BitVec.ofNat 64 g.role
  | 0x0B => v = BitVec.ofNat 64 (s.coreCycles t.core)
  | 0x0C => v = BitVec.ofNat 64 (s.coreCycles t.core - g.start)
  | 0x0D => v = c.th.xmode.zeroExtend 64
  | 0x0E => v = c.th.fflags.zeroExtend 64
  | 0x0F => v = c.th.ffpc
  | 0x10 => v.extractLsb' 0 32 = g.faultmask.lanes ∧ (g.faultmask.kind < 16 → g.faultmask.firstpc < 2 ^ 28 →
      v.extractLsb' 32 4 = BitVec.ofNat 4 g.faultmask.kind ∧ v.extractLsb' 36 28 = BitVec.ofNat 28 g.faultmask.firstpc)
  | 0x11 => v = match g.frame with
    | some fr => fr.cause
    | none => 0
  | 0x12 => v = match g.frame with
    | some fr => fr.trappc
    | none => 0
  | 0x13 => v = match g.frame with
    | some fr => fr.trapaddr
    | none => 0
  | 0x14 => v = c.th.seed
  | 0x15 => v.extractLsb' 0 32 = BitVec.ofNat 32 m.courses ∧ ∀ m0, s.team (m.ids.peers.headD (t.core, t.tr)).1
      (m.ids.peers.headD (t.core, t.tr)).2 = some m0 → v.extractLsb' 32 32 = BitVec.ofNat 32 m0.cluPhases
  | _ => False

/-- What SWR leaves in a thread (R22 to R25). -/
def swrThread (n : Nat) (v : Word) (th : Thread) : Thread :=
  match n with
  | 0x0D => { th with xmode := v.extractLsb' 0 17 }
  | 0x0E => { th with fflags := v.extractLsb' 0 6 }
  | 0x0F => { th with ffpc := v }
  | 0x14 => { th with seed := v }
  | _ => th

/-- A value that %xmode takes (R24): rounding and scope codes 0 to 5, and no reserved bit. -/
def goodXmode (v : Word) : Bool := v.extractLsb' 0 3 ≤ 5#3 && v.extractLsb' 6 3 ≤ 5#3 && v.extractLsb' 17 47 == 0

end Sys2Proof.Machine

section
open Sys2Proof Sys2Proof.Machine

/-- The traps that the words of an instruction decide are taken whatever the guard (R60): a run of more than 24 instructions, a branch-class
instruction that is not the last of its run, a role violation, a bad special register, then what the state decides of the instruction (DETAIL
6), and last a register outside the window, in that order (R61), with the instruction's first word as the resume address and nothing written. -/
def Sys2Proof.Claims.WordTraps : Prop :=
  ∀ (i : Instr) (s : State) (t : Turn) (m : Team) (g : Group), i.isEvent = false → AtIssue s t m g → LanesExist t g →
    let words := wordTraps i t g ((issueLanes t g).map (fun c => (c.lane, c.th)))
    let used := badUseLanes i { t := t, team := m, grp := g, lanes := issueLanes t g }
    let traps := fun (code detail : Nat) (lanes : List Nat) =>
      ∃ cause, IsCause cause code 0 detail lanes ∧ Traps i s t m g (fun c => c.th) cause (BitVec.ofNat 64 t.ipc) 0
    (∀ code detail lanes, words = some (code, detail, lanes) → code ≠ 3 ∨ used = [] → traps code detail lanes) ∧
    ((words = none ∨ ∃ lanes, words = some (3, 0, lanes)) → used ≠ [] → traps 1 6 used)

/-- What the words decide (R16, R59, R61, R62, R63): each trap with its code, its DETAIL and its lanes. -/
def Sys2Proof.Claims.WordTrapCauses : Prop :=
  ∀ (i : Instr) (t : Turn) (g : Group) (ls : List (Nat × Thread)),
    let long := (ls.filter (fun e => decide (24 ≤ e.2.pos))).map (·.1)
    let isTrailer := match i with
      | .trl .. => true
      | _ => false
    (isTrailer = false → long ≠ [] → wordTraps i t g ls = some (1, 3, long)) ∧
    (long = [] → endsRun i = true → t.closes = false → wordTraps i t g ls = some (1, 4, t.lanes)) ∧
    (long = [] → endsRun i = false → roleOk g.role i = false → wordTraps i t g ls = some (1, 5, t.lanes)) ∧
    (∀ d n, i = .srd d n → 0x15 < n.toNat → long = [] → wordTraps i t g ls = some (1, 6, t.lanes)) ∧
    (∀ a n, i = .swr a n → n ∉ ([0x0D, 0x0E, 0x0F, 0x12, 0x14] : List (BitVec 6)) → long = [] → wordTraps i t g ls = some (1, 6, t.lanes)) ∧
    (wordTraps i t g ls = none → ∀ e ∈ ls, ∀ f ∈ readFields i ++ writeFields i, isTrailer = false → f < 120 → e.2.wb + f < g.budget) ∧
    (isTrailer = false → long = [] → endsRun i = false ∨ t.closes = true → roleOk g.role i = true → badSpecial i = false →
      (∀ b, i ≠ .win b) → let out := (ls.filter (fun e => (readFields i ++ writeFields i).any (fun f => decide (f < 120 ∧ g.budget ≤ e.2.wb + f)))).map (·.1)
      wordTraps i t g ls = if out = [] then none else some (3, 0, out)) ∧
    (∀ b, i = .win b → long = [] → ls ≠ [] → wordTraps i t g ls = if g.budget ≤ 8 * b.toNat then some (3, 0, ls.map (·.1)) else none)

/-- NOP has no effect, YIELD ends the issue turn, WIN moves the window of its acting threads below the budget and traps the whole issue set above
it, whatever the guard (R16, R60, R120, R121). -/
def Sys2Proof.Claims.NopYieldWin : Prop :=
  (∀ (s : State) (t : Turn) (m : Team) (g : Group), Ready .nop s t m g → Leaves .nop s t g (fun c => c.th.stepped t.len)) ∧
  (∀ (s : State) (t : Turn) (m : Team) (g : Group), Ready .yield s t m g →
    Leaves .yield s t g (fun c => c.th.stepped t.len) ∧ (actingLanes t g ≠ [] → ∀ s', exec .yield s = .next s' → s'.turn = none)) ∧
  (∀ (b : BitVec 5) (s : State) (t : Turn) (m : Team) (g : Group),
    (Ready (.win b) s t m g → Leaves (.win b) s t g (whereActing t (fun _ th => { th with wb := 8 * b.toNat }))) ∧
    (AtIssue s t m g → LanesExist t g → t.lanes ≠ [] → (∀ c ∈ issueLanes t g, c.th.pos < 24) → g.budget ≤ 8 * b.toNat →
      ∃ cause, IsCause cause 3 0 0 t.lanes ∧ Traps (.win b) s t m g (fun c => c.th) cause (BitVec.ofNat 64 t.ipc) 0))

/-- BR and CALL take their transfer at the run's end, to the word's own address plus 4 x OFF20, where the guard predicate's bit 0 differs from
GN; CALL writes the address after the trailer into the link register (R64, R116). -/
def Sys2Proof.Claims.BranchAndCall : Prop :=
  ∀ (call : Bool) (gp : BitVec 4) (gn : BitVec 1) (o : BitVec 20) (s : State) (t : Turn) (m : Team) (g : Group),
    let i : Instr := if call then .call gp gn o else .br gp gn o
    Ready i s t m g → Leaves i s t g (fun c =>
      let th := c.th.stepped t.len
      if (c.th.pred gp.toNat).getLsbD 0 = (gn == 1) then th
      else
        let target := BitVec.ofNat 64 t.ipc + o.signExtend 64 * 4
        if call then { th.setReg (g.budget - 1) (BitVec.ofNat 64 (t.ipc + t.len + 4)) with xfer := some (.target target) }
        else { th with xfer := some (.target target) })

/-- RET transfers to the link register, JMPR to g[A], and RET.trap in handler mode to %trappc, all at the run's end; outside handler mode
RET.trap is an illegal instruction with DETAIL 6 (R31, R118). -/
def Sys2Proof.Claims.RegisterJumps : Prop :=
  (∀ (s : State) (t : Turn) (m : Team) (g : Group), Ready .ret s t m g →
    Leaves .ret s t g (whereActing t (fun c th => { th with xfer := some (.target (c.th.reg (g.budget - 1))) }))) ∧
  (∀ (a : BitVec 7) (s : State) (t : Turn) (m : Team) (g : Group), Ready (.jmpr a) s t m g →
    Leaves (.jmpr a) s t g (whereActing t (fun c th => { th with xfer := some (.target (c.th.rd a)) }))) ∧
  (∀ (s : State) (t : Turn) (m : Team) (g : Group), Issuing .retTrap s t m g → (∀ c ∈ actingLanes t g, Handles g c.lane) →
    Leaves .retTrap s t g (whereActing t (fun _ th => { th with xfer := some .trapReturn }))) ∧
  (∀ (s : State) (t : Turn) (m : Team) (g : Group), Issuing .retTrap s t m g → (∃ c ∈ actingLanes t g, ¬ Handles g c.lane) → LanesExist t g →
    ∃ cause, IsCause cause 1 0 6 ((actingLanes t g).map (·.lane)) ∧ Traps .retTrap s t m g (fun c => c.th) cause (BitVec.ofNat 64 t.ipc) 0)

/-- TRAP and BKPT trap the whole issue set where some guard bit is set, with the instruction counted and the next word as the resume address;
TFENCE traps the lanes whose enabled flags are set, and otherwise goes on (R28, R53, R122). -/
def Sys2Proof.Claims.SoftwareTraps : Prop :=
  (∀ (code : BitVec 16) (s : State) (t : Turn) (m : Team) (g : Group), Ready (.trap code) s t m g → actingLanes t g ≠ [] → LanesExist t g →
    ∃ cause, IsCause cause 9 0 code.toNat t.lanes ∧ Traps (.trap code) s t m g (fun c => c.th.stepped t.len) cause (BitVec.ofNat 64 (t.ipc + t.len)) 0) ∧
  (∀ (s : State) (t : Turn) (m : Team) (g : Group), Ready .bkpt s t m g → actingLanes t g ≠ [] → LanesExist t g →
    ∃ cause, IsCause cause 10 0 0 t.lanes ∧ Traps .bkpt s t m g (fun c => c.th.stepped t.len) cause (BitVec.ofNat 64 (t.ipc + t.len)) 0) ∧
  (∀ (s : State) (t : Turn) (m : Team) (g : Group), Ready .tfence s t m g →
    let hit := (actingLanes t g).filter (fun c => c.th.fflags &&& c.th.xmode.extractLsb' 11 6 != 0)
    (hit = [] → Leaves .tfence s t g (fun c => c.th.stepped t.len)) ∧
    (hit ≠ [] → LanesExist t g → ∃ cause,
      IsCause cause 8 (hit.foldl (fun f c => f ||| (c.th.fflags &&& c.th.xmode.extractLsb' 11 6)) 0) 0 (hit.map (·.lane)) ∧
      Traps .tfence s t m g (fun c => c.th.stepped t.len) cause (BitVec.ofNat 64 (t.ipc + t.len)) 0))

/-- A trap that no handler takes, or that is taken in handler mode, stops the team with its cause, resume address and address (R30). -/
def Sys2Proof.Claims.UnhandledTrap : Prop :=
  ∀ (code : BitVec 16) (s : State) (t : Turn) (m : Team) (g : Group), Ready (.trap code) s t m g → actingLanes t g ≠ [] → m.state = .running →
    (m.env.handlers.getD g.role 0 = 0 ∨ ∃ l ∈ t.lanes, Handles g l ∧ ¬ HasReturned g l) →
    ∃ s' cause, exec (.trap code) s = .next s' ∧ IsCause cause 9 0 code.toNat t.lanes ∧
      TeamStopped s s' t m cause (BitVec.ofNat 64 (t.ipc + t.len)) 0

/-- SRD reads the special register that its number names, and writes nothing else (R22, R123). -/
def Sys2Proof.Claims.ReadSpecial : Prop :=
  ∀ (d : BitVec 7) (n : BitVec 6) (s : State) (t : Turn) (m : Team) (g : Group), n.toNat ≤ 0x15 → Ready (.srd d n) s t m g →
    Executes (.srd d n) s t g [d.toNat] [] (fun c th' => SameFlags c.th th' ∧
      if c.m.guard.getLsbD 0 then SpecialIs s t m g c n.toNat (th'.reg (c.th.ix d.toNat)) else th'.reg (c.th.ix d.toNat) = c.th.rd d)

/-- SWR writes %xmode, %fflags, %ffpc and %seed of each acting thread, and FSTC reads %fflags and clears the flags; a value that %xmode does
not take is an illegal instruction with DETAIL 6 of the lanes that hold it (R22, R24, R25, R123). -/
def Sys2Proof.Claims.WriteSpecial : Prop :=
  (∀ (a : BitVec 7) (n : BitVec 6) (s : State) (t : Turn) (m : Team) (g : Group), n.toNat ∈ [0x0D, 0x0E, 0x0F, 0x14] → Issuing (.swr a n) s t m g →
    let bad := (actingLanes t g).filter (fun c => n == 0x0D && !goodXmode (c.th.rd a))
    (bad = [] → Leaves (.swr a n) s t g (whereActing t (fun c th => swrThread n.toNat (c.th.rd a) th))) ∧
    (bad ≠ [] → LanesExist t g → ∃ cause, IsCause cause 1 0 6 (bad.map (·.lane)) ∧
      Traps (.swr a n) s t m g (fun c => c.th) cause (BitVec.ofNat 64 t.ipc) 0)) ∧
  (∀ (d : BitVec 7) (s : State) (t : Turn) (m : Team) (g : Group), Ready (.fstc d) s t m g →
    Leaves (.fstc d) s t g (whereActing t (fun c th =>
      { th.setReg (c.th.ix d.toNat) (c.th.fflags.zeroExtend 64) with fflags := 0, ffpc := 0 })))

/-- An SWR of %trappc by threads in handler mode gives the group's frame its resume address, the last one's where several write it, and marks it
written (R22, R31); outside handler mode it has no effect (the model's choice, log 14). -/
def Sys2Proof.Claims.WriteTrapPc : Prop :=
  ∀ (a : BitVec 7) (s : State) (t : Turn) (m : Team) (g : Group), Ready (.swr a 0x12) s t m g →
    ∃ s' m' g', exec (.swr a 0x12) s = .next s' ∧ s'.team t.core t.tr = some m' ∧ m'.groups[t.grp]? = some g' ∧
      { m' with groups := m.groups } = m ∧ { g' with threads := g.threads, frame := g.frame } = g ∧ SameMemory s s' ∧
      (∀ c ∈ issueLanes t g, g'.threads[c.lane]? = some (c.th.stepped t.len)) ∧
      match g.frame, ((actingLanes t g).filter (fun c => g.inHandler c.lane)).getLast? with
      | some fr, some c => g'.frame = some { fr with trappc := c.th.rd a, pcWritten := true }
      | _, _ => g'.frame = g.frame

/-- TRL ends the run and the issue turn (R62, R65): positions and run temporaries are cleared, and a thread that took a transfer goes to its
target, whose run start is checked there. -/
def Sys2Proof.Claims.Trailer : Prop :=
  ∀ (a b c : BitVec 7) (all : BitVec 1) (s : State) (t : Turn) (m : Team) (g : Group), Ready (.trl a b c all) s t m g → g.frame = none →
    (∀ x ∈ issueLanes t g, x.th.xfer ≠ some .trapReturn) →
    Leaves (.trl a b c all) s t g (fun x =>
      let th := { x.th with pos := 0, unchecked := false, xfer := none, regs := x.th.regs.filter (fun e => decide (e.1 < 256)) }
      match x.th.xfer with
      | some (.target pc) => { th with pc := pc, unchecked := true }
      | _ => { th with pc := x.th.pc + BitVec.ofNat 64 t.len }) ∧
    ∀ s', exec (.trl a b c all) s = .next s' → s'.turn = none

/-- The trap return (R31). The trailer of a run that a trap return ended takes its threads to %trappc with their window, run temporaries, position
and transfer restored; once the last saved thread has returned, the held threads are released and the frame is cleared, and until then the
frame marks who has returned. A %trappc that a transfer could not take, outside the code region or not a multiple of 4, or one that the
handler wrote and that is no run start, is a trap in handler mode, and the team stops (R30, R64). -/
def Sys2Proof.Claims.TrapReturn : Prop :=
  ∀ (a b c : BitVec 7) (all : BitVec 1) (s : State) (t : Turn) (m : Team) (g : Group) (fr : Frame), Ready (.trl a b c all) s t m g →
    g.frame = some fr → t.lanes ≠ [] → LanesExist t g → (∀ x ∈ issueLanes t g, x.th.xfer = some .trapReturn) →
    (∀ l ∈ t.lanes, l ∈ fr.saved.map (·.lane)) → (fr.saved.map (·.lane)).Nodup →
    let pc := fr.trappc.toNat
    let bad := if inCode m.env pc = false then some 4
      else if pc % 4 ≠ 0 ∨ (fr.pcWritten = true ∧ isRunStart s m pc = false) then some 2 else none
    (∀ code, bad = some code → m.state = .running → ∃ s' cause, exec (.trl a b c all) s = .next s' ∧ IsCause cause code 0 0 t.lanes ∧
      TeamStopped s s' t m cause fr.trappc fr.trappc) ∧
    (bad = none → ∃ s' m' g', exec (.trl a b c all) s = .next s' ∧ s'.team t.core t.tr = some m' ∧ m'.groups[t.grp]? = some g' ∧ s'.turn = none ∧
      SameMemory s s' ∧ (∀ k, k ≠ t.grp → m'.groups[k]? = m.groups[k]?) ∧
      (∀ x ∈ issueLanes t g, ∀ sv ∈ fr.saved, sv.lane = x.lane → ∃ th', g'.threads[x.lane]? = some th' ∧ th'.pc = fr.trappc ∧
        th'.wb = sv.wb ∧ th'.pos = sv.pos ∧ th'.xfer = sv.xfer ∧ (∀ r, r < 256 → th'.reg r = x.th.reg r) ∧
        ((sv.temps.map (·.1)).Nodup → ∀ r, 256 ≤ r → th'.reg r = Table.get 0 sv.temps r) ∧ th'.preds = x.th.preds ∧ th'.fflags = x.th.fflags) ∧
      let last := ∀ sv ∈ fr.saved, sv.back = true ∨ sv.lane ∈ t.lanes
      (last → g'.frame = none ∧ (∀ th ∈ g'.threads, th.held = false) ∧
        ∀ l, l ∉ t.lanes → ∀ th, g.threads[l]? = some th → ∃ th', g'.threads[l]? = some th' ∧ th'.pc = th.pc ∧ th'.regs = th.regs ∧
          th'.preds = th.preds) ∧
      (¬ last → g'.frame = some { fr with saved := fr.saved.map (fun sv => if sv.lane ∈ t.lanes then { sv with back := true } else sv) } ∧
        ∀ l, l ∉ t.lanes → g'.threads[l]? = g.threads[l]?))

/-- EXIT ends its threads: their late writes are dropped, their locks and lock requests are released, and once every thread of every group
has exited the team has ended (R119, R187). In handler mode it makes the trap unhandled (R30). -/
def Sys2Proof.Claims.ThreadExit : Prop :=
  (∀ (s : State) (t : Turn) (m : Team) (g : Group), Ready .exit s t m g → (∀ c ∈ actingLanes t g, ¬ Handles g c.lane) →
    s.engineLoad t.core + m.cvs.length ≤ 16 →
    ∃ s' m' g', exec .exit s = .next s' ∧ s'.team t.core t.tr = some m' ∧ m'.groups[t.grp]? = some g' ∧ SameMemory s s' ∧
      (∀ x ∈ issueLanes t g, ∃ th', g'.threads[x.lane]? = some th' ∧ (x.m.guard.getLsbD 0 = true → th'.pend = []) ∧ th'.regs = x.th.regs ∧
        th'.status = if x.m.guard.getLsbD 0 then .exited else x.th.status) ∧
      (∀ (l : Nat) (th : Thread), l ∉ t.lanes → g.threads[l]? = some th → ∃ th' : Thread, g'.threads[l]? = some th' ∧ { th' with signed := th.signed, met := th.met } = th) ∧
      (∀ k g1, k ≠ t.grp → m.groups[k]? = some g1 → ∃ g2 : Group, m'.groups[k]? = some g2 ∧ { g2 with threads := g1.threads } = g1 ∧
        ∀ (l : Nat) (th : Thread), g1.threads[l]? = some th → ∃ th' : Thread, g2.threads[l]? = some th' ∧ { th' with signed := th.signed, met := th.met } = th) ∧
      (m.state = .running → (m'.state = .ended ↔ ∀ x ∈ m'.groups, ∀ th ∈ x.threads, th.status = .exited)) ∧
      ∀ w qs, (s'.die (t.core / 48)).locks.find w = some qs → ∀ q ∈ qs, ∀ x ∈ actingLanes t g,
        q.who ≠ { core := t.core, tr := t.tr, grp := t.grp, lane := x.lane }) ∧
  (∀ (s : State) (t : Turn) (m : Team) (g : Group) (fr : Frame), Ready .exit s t m g → g.frame = some fr → (∃ c ∈ actingLanes t g, Handles g c.lane) →
    m.state = .running → ∃ s', exec .exit s = .next s' ∧ TeamStopped s s' t m fr.cause fr.trappc fr.trapaddr)

end

namespace Sys2Proof.Machine

/-! ### What an instruction does to its team's barriers -/

/-- A state in which only one team's barriers, rings and cluster-phase count, and the watchdog times of tasks, may differ (R171, R322). -/
structure BarsBecome (s s1 : State) (t : Turn) (m : Team) (bars : List Barrier) (rings : Table Ring) : Prop where
  rest : { s1 with cores := s.cores, sched := s.sched } = s
  sched : { s1.sched with tasks := s.sched.tasks } = s.sched
  cores : ∀ c, c ≠ t.core → s1.core c = s.core c
  core : { s1.core t.core with teams := (s.core t.core).teams } = s.core t.core
  teams : ∀ r, r ≠ t.tr → s1.team t.core r = s.team t.core r
  team : s1.team t.core t.tr = some { m with bars := bars, rings := rings }

/-- An instruction acts on its team's barriers and rings and leaves each lane the thread that `f` gives. -/
def LeavesBars (i : Instr) (s : State) (t : Turn) (m : Team) (g : Group) (bars : List Barrier) (rings : Table Ring) (f : LaneCtx → Thread) : Prop :=
  ∃ s' s1, exec i s = .next s' ∧ BarsBecome s s1 t m bars rings ∧ TouchesOnly s1 s' t ∧ SameMemory s s' ∧
    ∀ c ∈ issueLanes t g, s'.threadAt t.core t.tr t.grp c.lane = some (f c)

/-- A barrier that no arrival through CBAR has touched (R176). -/
def Barrier.own (b : Barrier) : Prop := b.cluArr = false ∧ b.cluHeld = []

/-- A barrier after one event and the check of R171. -/
def Barrier.event (b : Barrier) (f : Barrier → Barrier) : Barrier := (f b).after.1

/-! ### Near memory (R154 to R167, R186) -/

/-- The near space, the base register's field, the offset field, the access size and whether it writes, of a near-memory instruction (R57,
R159, R160, R165). -/
structure NearRow where
  space : NearSpace
  base : BitVec 7
  off : BitVec 6
  size : Nat
  write : Bool

/-- Bytes of a load's SZ (R57). -/
def loadBytes (sz : BitVec 3) : Nat := if sz.toNat ≤ 4 then 2 ^ sz.toNat else 2 ^ (sz.toNat - 5)

/-- The near-memory instructions. -/
def nearRow : Instr → Option NearRow
  | .lds _ b o sz _ => some ⟨.scratch, b, o, loadBytes sz, false⟩
  | .ldt _ b o sz _ => some ⟨.tile, b, o, loadBytes sz, false⟩
  | .ldc _ b o sz _ => some ⟨.const, b, o, loadBytes sz, false⟩
  | .ldx _ b o sz _ => some ⟨.peer, b, o, loadBytes sz, false⟩
  | .st _ b o sz p _ => some ⟨NearSpace.ofCode p, b, o, 2 ^ sz.toNat, true⟩
  | .atom _ a _ _ _ sp _ ty o => some ⟨NearSpace.ofCode sp, a, o, atomBytes ty.toNat, true⟩
  | _ => none

/-- The address that a lane computes: the base register plus the scaled offset, modulo 2^64 (R57, R159). -/
def NearRow.addr (k : NearRow) (t : Turn) (c : LaneCtx) : Nat := (c.th.rd k.base + memOffset t.pfx k.off k.size).toNat

/-- The operations of a lane's access, each with its byte offset from the address: one, or the two halves of 16 bytes (R161, R167). -/
def nearOps (i : Instr) (c : LaneCtx) : List (Nat × NearOp) :=
  match i with
  | .lds d _ _ sz _ | .ldt d _ _ sz _ | .ldc d _ _ sz _ | .ldx d _ _ sz _ =>
    if sz = 4 then [(0, .load 8 false (c.th.ix d.toNat)), (8, .load 8 false (c.th.ix (d.toNat + 1)))]
    else [(0, .load (loadBytes sz) (decide (5 ≤ sz.toNat)) (c.th.ix d.toNat))]
  | .st d _ _ sz _ z =>
    let v := fun f => if z = 1 then 0 else (c.th.reg (c.th.ix f)).toNat
    if sz.toNat = 4 then [(0, .store 8 (v d.toNat)), (8, .store 8 (v (d.toNat + 1)))] else [(0, .store (2 ^ sz.toNat) (v d.toNat))]
  | .atom d _ b _ fn _ op ty _ =>
    [(0, .atom op.toNat ty.toNat (c.th.rd b).toNat (c.th.rd d).toNat (if fn = 0 then some (c.th.ix d.toNat) else none))]
  | _ => []

/-- A near access's registers that receive a value (R159, R167). -/
def NearOp.target : NearOp → Option Nat
  | .load _ _ r => some r
  | .store .. => none
  | .atom _ _ _ _ r => r

/-- A value of n bytes, zero-extended or sign-extended (R159). -/
def extended (size : Nat) (sx : Bool) (v : Nat) : Word := if sx then (BitVec.ofNat (8 * size) v).signExtend 64 else BitVec.ofNat 64 v

/-- ATOM on a memory, lane by lane ascending (R49, R167): each entry is a place, an operand and a comparand; the answers are the old values. -/
def atomRun (op ty : Nat) : Memory → List (Nat × Nat × Nat) → Memory × List Nat
  | mem, [] => (mem, [])
  | mem, (p, b, d) :: r =>
    let n := atomBytes ty
    let old := mem.readLE p n
    let rest := atomRun op ty (mem.writeLE p (combine op ty old (b % 256 ^ n) (d % 256 ^ n)) n) r
    (rest.1, old :: rest.2)

/-- What one lane sees of its access's probe (R154, R155). -/
def probeOf (k : NearRow) (s : State) (t : Turn) (m : Team) (c : LaneCtx) : Except Nat (NearUnit × Nat) :=
  probeLane s t.core m { space := k.space, size := k.size, write := k.write } (k.addr t c)

/-- Bytes of a near-memory place as they were, but for those of a list of places and sizes. -/
def SameBut (mem mem' : Memory) (places : List (Nat × Nat)) : Prop := ∀ a, (∀ e ∈ places, a < e.1 ∨ e.1 + e.2 ≤ a) → mem'.read a = mem.read a

/-- A near access's pending write of registers (R67). -/
def nearPending (id win : Nat) (regs : List (Nat × Option Word)) : Pending :=
  { id := id, regs := regs, preds := [], win := win, inRun := true, awaited := [], awaitAll := false, landed := false, near := true, matrix := false,
    hold := false, fp := false, fixed := false }

/-- The thread of a lane that has issued an access whose values are not known yet (R67); one that acquires is ordered before the thread's younger
accesses (R163). -/
def waitingThread (i : Instr) (t : Turn) (tick win : Nat) (c : LaneCtx) : Thread :=
  let rs := (nearOps i c).filterMap (fun o => o.2.target)
  let stores := match i with
    | .st .. => true
    | _ => false
  { c.th.stepped t.len with
    pend := if rs = [] then [] else [nearPending tick win (rs.map (fun r => (r, none)))],
    acqs := if (c.m.order = 1 ∨ c.m.order = 3) ∧ stores = false then [tick] else [] }

/-- A lane's earlier access to its core's own scratchpad waits at a port (R248). -/
def OwnWaits (s : State) (t : Turn) (c : LaneCtx) : Prop :=
  ∃ q ∈ (s.core t.core).peerReqs, q.core = t.core ∧ q.tr = t.tr ∧ q.grp = t.grp ∧ c.lane ∈ q.lanes.map (·.1)

/-- An access of the team that waits for a bank of its core's own scratchpad: the upper half of a 16-byte access (R161). -/
def UpperHalf (q : NearReq) (s : State) (t : Turn) (m : Team) (c : LaneCtx) (p : Nat) (o : NearOp) : Prop :=
  q.tile = false ∧ q.own = true ∧ q.unit = t.core ∧ q.place = p / 8 ∧ q.core = t.core ∧ q.tr = t.tr ∧ q.grp = t.grp ∧ q.task = m.ids.task ∧
    q.pend = s.tick ∧ (c.lane, p, o) ∈ q.lanes

/-- Whether two byte ranges of n bytes are apart. -/
def Apart (n a b : Nat) : Prop := a + n ≤ b ∨ b + n ≤ a

end Sys2Proof.Machine

section
open Sys2Proof Sys2Proof.Machine

/-- LDS and LDC give each acting lane the bytes at its address in the team's scratchpad allocation or constant binding, little-endian, zero-
or sign-extended, and 16 bytes in a register pair; no memory changes. The 16 bytes of an LDS are two accesses of 8: the upper one waits at the
scratchpad's port for the second register (R154, R159, R161; that it comes later is the model's form, log 84). -/
def Obligations.NearLoads : Prop :=
  ∀ (isConst : Bool) (d b : BitVec 7) (o : BitVec 6) (sz : BitVec 3) (l : BitVec 4) (s : State) (t : Turn) (m : Team) (g : Group),
    let i : Instr := if isConst then .ldc d b o sz l else .lds d b o sz l
    let n := loadBytes sz
    let base := if isConst then m.env.constBase else m.env.scratchBase
    let mem := if isConst then (s.core t.core).const else (s.core t.core).scratch
    let addr := fun (c : LaneCtx) => (c.th.rd b + memOffset t.pfx o n).toNat
    i.wf → Ready i s t m g → s.hours.poison = [] → (isConst = false → ∀ c ∈ actingLanes t g, ¬ OwnWaits s t c) →
    (∀ c ∈ actingLanes t g, addr c % n = 0 ∧ addr c + n ≤ if isConst then m.env.constSize else m.env.scratchSize) →
    (isConst = true ∨ sz ≠ 4 → Executes i s t g (if sz = 4 then [d.toNat, d.toNat + 1] else [d.toNat]) [] (fun c th' => SameFlags c.th th' ∧
      if c.m.guard.getLsbD 0 = false then
        th'.reg (c.th.ix d.toNat) = c.th.rd d ∧ th'.reg (c.th.ix (d.toNat + 1)) = c.th.reg (c.th.ix (d.toNat + 1))
      else if sz = 4 then
        th'.reg (c.th.ix d.toNat) = BitVec.ofNat 64 (mem.readLE (base + addr c) 8) ∧
          th'.reg (c.th.ix (d.toNat + 1)) = BitVec.ofNat 64 (mem.readLE (base + addr c + 8) 8)
      else th'.reg (c.th.ix d.toNat) = extended n (decide (5 ≤ sz.toNat)) (mem.readLE (base + addr c) n))) ∧
    (isConst = false → sz = 4 → ∃ s' s1 rs, exec i s = .next s' ∧ TouchesOnly s1 s' t ∧ SameMemory s s' ∧
      { s1 with cores := s.cores } = s ∧ (∀ q, q ≠ t.core → s1.core q = s.core q) ∧
      s1.core t.core = { s.core t.core with peerReqs := (s.core t.core).peerReqs ++ rs } ∧
      (∀ c ∈ actingLanes t g, ∃ q ∈ rs, UpperHalf q s t m c (base + addr c + 8) (.load 8 false (c.th.ix (d.toNat + 1)))) ∧
      ∀ c ∈ issueLanes t g, s'.threadAt t.core t.tr t.grp c.lane = some (if c.m.guard.getLsbD 0 then
        { waitingThread i t s.tick l.toNat c with pend := [nearPending s.tick l.toNat
          [(c.th.ix d.toNat, some (BitVec.ofNat 64 (mem.readLE (base + addr c) 8))), (c.th.ix (d.toNat + 1), none)]] }
        else c.th.stepped t.len))

/-- ST to the scratchpad writes the low bytes of its register, or zeros, at each acting lane's address; the lane that comes last wins a byte that
two lanes write, every other byte stays, and the threads only move on (R160, R161). A 16-byte store writes its first register so, and its
second one waits at the scratchpad's port as an access of its own (R161; that it comes later is the model's form, log 84). -/
def Obligations.ScratchStore : Prop :=
  ∀ (d b : BitVec 7) (o : BitVec 6) (sz : BitVec 3) (z : BitVec 1) (s : State) (t : Turn) (m : Team) (g : Group),
    let i : Instr := .st d b o sz 0 z
    let n := 2 ^ sz.toNat
    let now := min n 8
    let place := fun (c : LaneCtx) => m.env.scratchBase + (c.th.rd b + memOffset t.pfx o n).toNat
    let value := fun (c : LaneCtx) => if z = 1 then 0 else (c.th.rd d).toNat % 256 ^ now
    let upper := fun (c : LaneCtx) => if z = 1 then 0 else (c.th.reg (c.th.ix (d.toNat + 1))).toNat
    i.wf → Ready i s t m g → s.hours.poison = [] → (∀ c ∈ actingLanes t g, s.outstanding t.core t.tr t.grp c.lane = false) →
    (∀ c ∈ actingLanes t g, (place c - m.env.scratchBase) % n = 0 ∧ place c + n ≤ m.env.scratchBase + m.env.scratchSize) →
    ∃ s' s1 mem rs, exec i s = .next s' ∧ TouchesOnly s1 s' t ∧ { s1 with cores := s.cores } = s ∧ (∀ q, q ≠ t.core → s1.core q = s.core q) ∧
      s1.core t.core = { s.core t.core with scratch := mem, peerReqs := (s.core t.core).peerReqs ++ rs } ∧ (sz.toNat < 4 → rs = []) ∧
      (sz.toNat = 4 → ∀ c ∈ actingLanes t g, ∃ q ∈ rs, UpperHalf q s t m c (place c + 8) (.store 8 (upper c))) ∧
      (∀ c ∈ issueLanes t g, s'.threadAt t.core t.tr t.grp c.lane = some (c.th.stepped t.len)) ∧
      SameBut (s.core t.core).scratch mem ((actingLanes t g).map (fun c => (place c, now))) ∧
      ∀ (k : Nat) (c : LaneCtx), (actingLanes t g)[k]? = some c → (∀ (j : Nat) (c' : LaneCtx), k < j → (actingLanes t g)[j]? = some c' → Apart now (place c) (place c')) →
        mem.readLE (place c) now = value c

/-- ATOM on the scratchpad performs its combination lane by lane in ascending order, gives each lane the value it found, and changes no byte
outside the elements it names (R49, R167). -/
def Sys2Proof.Claims.ScratchAtomic : Prop :=
  ∀ (d a b : BitVec 7) (l : BitVec 4) (fn : BitVec 2) (op ty : BitVec 4) (o : BitVec 6) (s : State) (t : Turn) (m : Team) (g : Group),
    let i : Instr := .atom d a b l fn 0 op ty o
    let n := atomBytes ty.toNat
    let place := fun (c : LaneCtx) => m.env.scratchBase + (c.th.rd a + memOffset t.pfx o n).toNat
    let run := atomRun op.toNat ty.toNat (s.core t.core).scratch
      ((actingLanes t g).map (fun c => (place c, (c.th.rd b).toNat, (c.th.rd d).toNat)))
    i.wf → Ready i s t m g → s.hours.poison = [] → (∀ c ∈ actingLanes t g, s.outstanding t.core t.tr t.grp c.lane = false) →
    (∀ c ∈ actingLanes t g, (place c - m.env.scratchBase) % n = 0 ∧ place c + n ≤ m.env.scratchBase + m.env.scratchSize) →
    ∃ s', exec i s = .next s' ∧ TouchesOnly (s.setNearMem (.scratch t.core) run.1) s' t ∧
      SameBut (s.core t.core).scratch run.1 ((actingLanes t g).map (fun c => (place c, n))) ∧
      (∀ c ∈ issueLanes t g, ∃ th', Outcome s' t c th' ∧ Advanced (if fn = 0 then [d.toNat] else []) [] t c.th th' ∧ SameFlags c.th th' ∧
        (c.m.guard.getLsbD 0 = false → th'.reg (c.th.ix d.toNat) = c.th.rd d) ∧
        ∀ (k old : Nat), (actingLanes t g)[k]? = some c → run.2[k]? = some old → fn = 0 → th'.reg (c.th.ix d.toNat) = BitVec.ofNat 64 old)

/-- What one step of ATOM and of the commands' reductions makes of an integer element (R166, R167). -/
def Sys2Proof.Claims.IntegerCombine : Prop :=
  ∀ (ty : Nat) (x y d : Nat), ty ∈ [0, 8, 9, 14] →
    let n := 8 * atomBytes ty
    x < 2 ^ n → y < 2 ^ n → d < 2 ^ n →
    (ty ≠ 0 → combine 1 ty x y d = (x + y) % 2 ^ n) ∧
    combine 2 ty x y d = (if ty = 8 ∨ ty = 9 then (if (BitVec.ofNat n x).toInt ≤ (BitVec.ofNat n y).toInt then x else y) else min x y) ∧
    combine 3 ty x y d = (if ty = 8 ∨ ty = 9 then (if (BitVec.ofNat n x).toInt ≤ (BitVec.ofNat n y).toInt then y else x) else max x y) ∧
    combine 4 ty x y d = x &&& y ∧ combine 5 ty x y d = x ||| y ∧ combine 6 ty x y d = x ^^^ y ∧ combine 7 ty x y d = y ∧
    combine 8 ty x y d = if x = d then y else x

/-- A near access to the tile store or to a peer's scratchpad (LDT, LDX, and ST and ATOM with spaces 1 and 2) sends each acting lane's
operations to the bank or port of its place, changes no byte yet, and leaves its registers pending; an ATOM on the tile store is a commit point
(R157, R161, R191, R202, R205). -/
def Obligations.QueuedAccess : Prop :=
  ∀ (i : Instr) (k : NearRow) (at_ : LaneCtx → NearUnit × Nat) (s : State) (t : Turn) (m : Team) (g : Group),
    nearRow i = some k → k.space = .tile ∨ k.space = .peer → i.wf → Ready i s t m g → t.lanes.length ≤ 32 →
    (∀ c ∈ actingLanes t g, probeOf k s t m c = .ok (at_ c)) →
    (∀ c ∈ actingLanes t g, c.m.consume = false) →
    (∀ d, (s.die d).counts = [] ∧ (s.die d).tileReqs = [] ∧ (s.die d).askers = []) → (∀ q, (s.core q).peerReqs = []) →
    ∃ s' s1, exec i s = .next s' ∧ TouchesOnly s1 s' t ∧ SameMemory s s' ∧
      { s1 with cores := s.cores, dies := s.dies, sched := s.sched } = s ∧
      (∀ q, { s1.core q with peerReqs := (s.core q).peerReqs } = s.core q) ∧ (∀ q, { s1.die q with tileReqs := (s.die q).tileReqs } = s.die q) ∧
      { s1.sched with tasks := s.sched.tasks } = s.sched ∧
      (∀ c ∈ issueLanes t g, s'.threadAt t.core t.tr t.grp c.lane =
        some (if c.m.guard.getLsbD 0 then waitingThread i t s.tick (match lookahead i with | some w => w | none => 0) c
          else c.th.stepped t.len)) ∧
      (∀ c ∈ actingLanes t g, ∀ e ∈ nearOps i c, ∃ q,
        (match (at_ c).1 with
          | .tile u => q ∈ (s'.die u).tileReqs ∧ q.tile = true ∧ q.unit = u ∧ q.place = ((at_ c).2 + e.1) / 64
          | .scratch u => q ∈ (s'.core u).peerReqs ∧ q.tile = false ∧ q.unit = u ∧ q.place = ((at_ c).2 + e.1) / 8
          | .const _ => False) ∧
        q.own = false ∧ q.core = t.core ∧ q.tr = t.tr ∧ q.grp = t.grp ∧ q.task = m.ids.task ∧ q.pend = s.tick ∧
          (c.lane, (at_ c).2 + e.1, e.2) ∈ q.lanes) ∧
      (∀ d a b l fn op ty o, i = .atom d a b l fn 1 op ty o → actingLanes t g ≠ [] → ∀ x, s.sched.tasks.find m.ids.task = some x →
        ∃ x', s'.sched.tasks.find m.ids.task = some x' ∧ (x.state = .opened → x'.state = .committed))

/-- The probe's fault kinds come in the order of R155: an absent peer, bounds, alignment, a lock word, a write to a frozen line, and the
over-read of a Spent line; an access that passes lies in its allocation, binding or grant at its own offset (R154, R204; that the lines fenced
banks have taken from a grant's end are out of bounds is the model's choice, log 87). -/
def Sys2Proof.Claims.ProbeOrder : Prop :=
  ∀ (s : State) (c : Nat) (m : Team) (sp : NearSpace) (n : Nat) (w : Bool) (a : Nat), 0 < n →
    let r := probeLane s c m { space := sp, size := n, write := w } a
    (sp = .scratch → r = if m.env.scratchSize < a + n then .error 1 else if a % n ≠ 0 then .error 2
      else .ok (.scratch c, m.env.scratchBase + a)) ∧
    (sp = .const → r = if m.env.constSize < a + n then .error 1 else if a % n ≠ 0 then .error 2 else .ok (.const c, m.env.constBase + a)) ∧
    (sp = .peer → (m.ids.peers.length ≤ a / 2 ^ 28 % 16 → r = .error 6) ∧
      ∀ p q, m.ids.peers[a / 2 ^ 28 % 16]? = some p → s.team p.1 p.2 = some q →
        r = if a / 2 ^ 32 ≠ 0 ∨ a / 2 ^ 20 % 256 ≠ 0 ∨ q.env.scratchSize < a % 2 ^ 20 + n then .error 1
          else if a % n ≠ 0 then .error 2 else .ok (.scratch p.1, q.env.scratchBase + a % 2 ^ 20)) ∧
    (sp = .tile →
      let die := c / 48
      let base := ((s.ctx m.ids.ctx).grant.getD die (0, 0)).1 * 262144
      let lines := 256 * (512 - (s.hours.fenced.banks.filter (fun b => b.1 == die)).length)
      let len := min (((s.ctx m.ids.ctx).grant.getD die (0, 0)).2 * 262144) (256 * lines - base)
      let p := base + a
      r = if len < a + n then .error 1 else if a % n ≠ 0 then .error 2
        else if (wordsOf p n).any (s.lockWord die) then .error 5
        else if w && s.tileFrozen m.ids.ctx die p then .error 3
        else if ((s.die die).counts.find (p / 256)).any (fun k => k.count == 0) then .error 4
        else .ok (.tile die, p))

/-- A near-memory instruction some of whose lanes fail the probe (R156): where a failing lane is in stop mode the whole instruction traps with
code 6, the kind and address of the lowest failing lane, and every failing lane; and an LDS whose failing lanes are all in mask mode leaves
those lanes' registers alone and records them in %faultmask, whose KIND and FIRSTPC only the first fault fixes (R26). -/
def Sys2Proof.Claims.NearFaults : Prop :=
  (∀ (i : Instr) (k : NearRow) (s : State) (t : Turn) (m : Team) (g : Group) (c0 : LaneCtx) (k0 : Nat), nearRow i = some k → Ready i s t m g →
    LanesExist t g →
    let bad := (actingLanes t g).filter (fun c => match probeOf k s t m c with
      | .error _ => true
      | .ok _ => false)
    bad.head? = some c0 → probeOf k s t m c0 = .error k0 → (∃ c ∈ bad, c.th.xmode.getLsbD 5 = true) →
    ∃ cause, IsCause cause 6 0 k0 (bad.map (·.lane)) ∧
      Traps i s t m g (fun c => c.th) cause (BitVec.ofNat 64 t.ipc) (BitVec.ofNat 64 (k.addr t c0))) ∧
  (∀ (d b : BitVec 7) (o : BitVec 6) (sz : BitVec 3) (l : BitVec 4) (s : State) (t : Turn) (m : Team) (g : Group) (k : NearRow),
    nearRow (.lds d b o sz l) = some k → Ready (.lds d b o sz l) s t m g → s.hours.poison = [] →
    let bad := (actingLanes t g).filter (fun c => match probeOf k s t m c with
      | .error _ => true
      | .ok _ => false)
    bad ≠ [] → (∀ c ∈ bad, c.th.xmode.getLsbD 5 = false) →
    ∃ s' m' g', exec (.lds d b o sz l) s = .next s' ∧ s'.team t.core t.tr = some m' ∧ m'.groups[t.grp]? = some g' ∧ SameMemory s s' ∧
      (∀ j, j < 32 → g'.faultmask.lanes.getLsbD j = (g.faultmask.lanes.getLsbD j || bad.any (fun c => c.lane == j))) ∧
      (g.faultmask.lanes ≠ 0 → g'.faultmask.kind = g.faultmask.kind ∧ g'.faultmask.firstpc = g.faultmask.firstpc) ∧
      (g.faultmask.lanes = 0 → ∀ c0 k0, bad.head? = some c0 → probeOf k s t m c0 = .error k0 →
        g'.faultmask.kind = k0 ∧ g'.faultmask.firstpc = (t.ipc - m.env.codeBase) / 4 % 2 ^ 28) ∧
      ∀ c ∈ bad, s'.threadAt t.core t.tr t.grp c.lane = some (c.th.stepped t.len))

/-- LOCK puts each acting lane at the tail of its word's queue with its barrier, and UNLOCK removes the head that each acting lane is, whose
arrival comes with it if the grant's own step has not brought it yet; the word with an empty queue becomes ordinary, no byte of memory
changes, and the threads only move on (R186). -/
def Obligations.Locks : Prop :=
  (∀ (a : BitVec 7) (n : BitVec 4) (s : State) (t : Turn) (m : Team) (g : Group), Ready (.lock a n) s t m g →
    let die := t.core / 48
    let who := fun (c : LaneCtx) => ({ core := t.core, tr := t.tr, grp := t.grp, lane := c.lane } : LaneId)
    let word := fun (c : LaneCtx) => (((s.ctx m.ids.ctx).grant.getD die (0, 0)).1 * 262144 + (c.th.rd a).toNat) / 8
    let after := (actingLanes t g).foldl (fun (ls : Table (List LockReq)) c =>
      ls.insert (word c) ((ls.find (word c)).getD [] ++ [{ who := who c, bar := n.toNat, granted := false }])) (s.die die).locks
    (∀ c ∈ actingLanes t g, (c.th.rd a).toNat % 8 = 0 ∧ (c.th.rd a).toNat + 8 ≤ (s.grant m.ids.ctx die).2 ∧
      (s.die die).waits (who c) = false ∧ (s.die die).holds (who c) < 8 ∧ ∀ q ∈ ((s.die die).locks.find (word c)).getD [], q.who ≠ who c) →
    (s.die die).counts = [] → lockRoom s die { s.die die with locks := after } = true →
    ∃ s', exec (.lock a n) s = .next s' ∧ TouchesOnly (s.setDie die { s.die die with locks := after }) s' t ∧ SameMemory s s' ∧
      ∀ x ∈ issueLanes t g, s'.threadAt t.core t.tr t.grp x.lane = some (x.th.stepped t.len)) ∧
  (∀ (a : BitVec 7) (s : State) (t : Turn) (m : Team) (g : Group), Ready (.unlock a) s t m g →
    let die := t.core / 48
    let who := fun (c : LaneCtx) => ({ core := t.core, tr := t.tr, grp := t.grp, lane := c.lane } : LaneId)
    let word := fun (c : LaneCtx) => (((s.ctx m.ids.ctx).grant.getD die (0, 0)).1 * 262144 + (c.th.rd a).toNat) / 8
    let after := (actingLanes t g).foldl (fun (ls : Table (List LockReq)) c =>
      if ((ls.find (word c)).getD []).length ≤ 1 then ls.erase (word c) else ls.insert (word c) (((ls.find (word c)).getD []).drop 1))
      (s.die die).locks
    (∀ c ∈ actingLanes t g, (c.th.rd a).toNat % 8 = 0 ∧ (c.th.rd a).toNat + 8 ≤ (s.grant m.ids.ctx die).2 ∧
      s.outstanding t.core t.tr t.grp c.lane = false ∧ ∃ q r, (s.die die).locks.find (word c) = some (q :: r) ∧ q.who = who c) →
    (s.die die).counts = [] → ((s.die die).locks.map (·.1)).Nodup →
    ((∀ c ∈ actingLanes t g, ∀ q r, (s.die die).locks.find (word c) = some (q :: r) → q.granted = true) →
      ∃ s', exec (.unlock a) s = .next s' ∧ TouchesOnly (s.setDie die { s.die die with locks := after }) s' t ∧ SameMemory s s' ∧
        ∀ x ∈ issueLanes t g, s'.threadAt t.core t.tr t.grp x.lane = some (x.th.stepped t.len)) ∧
    (∀ c q r b, actingLanes t g = [c] → (s.die die).locks.find (word c) = some (q :: r) → q.granted = false → m.state = .running →
      m.bars[q.bar]? = some b → b.own →
      ∃ s' s1, exec (.unlock a) s = .next s' ∧
        BarsBecome (s.setDie die { s.die die with locks := after }) s1 t m (m.bars.set q.bar (b.event (·.arrive false))) m.rings ∧
        TouchesOnly s1 s' t ∧ SameMemory s s' ∧
        ∀ x ∈ issueLanes t g, s'.threadAt t.core t.tr t.grp x.lane = some (x.th.stepped t.len)))

end

namespace Sys2Proof.Machine

/-! ### Barriers, waits, rings and convergence (R164, R168 to R185) -/

/-- Arrivals, one for each of n lanes: the barrier after them, and the phase each counts toward (R175). -/
def arrivals : Nat → Barrier → Barrier × List Nat
  | 0, b => (b, [])
  | n + 1, b =>
    let r := arrivals n (b.event (·.arrive false))
    (r.1, b.arrivalPhase :: r.2)

/-- Expectations, lane by lane, and then, with `arr`, an arrival of each lane (R173, R175). -/
def expectations (arr : Bool) (xs : List Nat) (b : Barrier) : Barrier :=
  let b := xs.foldl (fun b x => b.event (·.expect x)) b
  if arr then xs.foldl (fun b _ => b.event (·.arrive false)) b else b

/-- Whether a phase's needs are met (R171). -/
def Barrier.met (b : Barrier) : Prop := b.arr = b.expa ∧ b.expb + b.xb ≤ b.byt

/-- A barrier whose current phase completes without error (R171). -/
def Barrier.completed (b : Barrier) : Barrier :=
  { b with ovr := b.ovr || decide (b.expb + b.xb < b.byt), byt := b.byt - (b.expb + b.xb), xb := 0, arr := min b.pa b.expa,
           pa := b.pa - min b.pa b.expa, c := (b.c + 1) % 2 ^ 32, errh := 2 * b.errh % 2 ^ 32 }

/-- A thread that waits on a barrier phase: it takes the predicate at once where the phase has completed or the barrier is closed, and
otherwise blocks (R176). -/
def waits (t : Turn) (p bar : Nat) (clu : Bool) (b : Barrier) (x : Nat) (c : LaneCtx) : Thread :=
  let th := c.th.stepped t.len
  let d := (b.c + 2 ^ 32 - x % 2 ^ 32) % 2 ^ 32
  if 1 ≤ d ∧ d ≤ 2 ^ 31 then
    th.setPred p (if (if d ≤ 32 then b.errh.testBit (d - 1) else b.errs) then 0x00 else 0xFF)
  else if b.closed then th.setPred p 0x00
  else { th with status := .wait (.barrier clu bar x p) }

/-- The lanes that act: every acting lane, or the lowest with ONE (R169). -/
def oneOf (one : BitVec 1) (ls : List LaneCtx) : List LaneCtx := if one = 1 then ls.take 1 else ls

/-- Expectations and then arrivals on the barriers of a ring, each lane on its own stage (R173, R182): `off` is 0 for the full barriers and 1 for
the empty ones. -/
def ringRun (q : Ring) (off : Nat) (ls : List (Word × Option Nat)) (bars : List Barrier) : List Barrier :=
  let at_ := fun (e : Word × Option Nat) => q.bF + 2 * (e.1.toNat % q.n) + off
  let bars := ls.foldl (fun bs e => match e.2 with
    | some x => bs.modify (at_ e) (fun b => b.event (·.expect x))
    | none => bs) bars
  ls.foldl (fun bs e => bs.modify (at_ e) (fun b => b.event (·.arrive false))) bars

/-- The near accesses of a lane's arrival are all performed (R248). -/
def Performed (s : State) (t : Turn) (g : Group) : Prop := ∀ c ∈ actingLanes t g, s.outstanding t.core t.tr t.grp c.lane = false

/-- An interlock: nothing changes but that a cycle of the core passes, and a turn whose team has lost GO ends (R9, R308). -/
def Interlocks (i : Instr) (s : State) (t : Turn) : Prop := exec i s = .next (s.spend t.core 1).dropStopped

/-- A state in which blocked threads of a team's cluster remember that the case they wait for has held (R176, R180, R185), and nothing else has
changed. -/
structure Latched (s s0 : State) (t : Turn) (m : Team) : Prop where
  rest : { s0 with cores := s.cores } = s
  core : ∀ c, { s0.core c with teams := (s.core c).teams } = s.core c
  team : ∀ c r m1, s.team c r = some m1 → ∃ m0 : Team, s0.team c r = some m0 ∧ { m0 with groups := m1.groups } = m1 ∧
    ∀ (k : Nat) (g1 : Group), m1.groups[k]? = some g1 → ∃ g0, m0.groups[k]? = some g0 ∧ { g0 with threads := g1.threads } = g1 ∧
      ∀ (l : Nat) (th : Thread), g1.threads[l]? = some th → ∃ th0, g0.threads[l]? = some th0 ∧ { th0 with met := th.met } = th ∧
        ((∀ w, th.status ≠ .wait w) ∨ th.met ≠ none ∨ (c, r) ∉ (t.core, t.tr) :: m.ids.peers → th0.met = th.met) ∧
        (∀ w, th.status = .wait w → th.met = none → (c, r) ∈ (t.core, t.tr) :: m.ids.peers → th0.met = s.waitMet c r m1 g1 w)

/-- The threads that a convergence register counts: those of its member groups that have not exited (R185). -/
def counting (m : Team) (v : Cv) : List Thread :=
  (v.members.flatMap (fun k => ((m.groups[k]?).map (·.threads)).getD [])).filter (fun th => th.status ≠ .exited)

/-- How many phases of a register have completed (R185): one more than have passed where every thread has signed the current one. -/
def phasesDone (m : Team) (cv : Nat) (v : Cv) : Nat :=
  if counting m v ≠ [] ∧ ∀ th ∈ counting m v, v.q < (th.signed.find cv).getD 0 then v.q + 1 else v.q

end Sys2Proof.Machine

section
open Sys2Proof Sys2Proof.Machine

/-- FENCE (R164). Its release part at a scope beyond the group marks the thread, and a near access, lock or command of a marked thread waits while an
older near access of it is still to be performed. Its acquire part names the thread's loads and ATOMs that have not landed, and such an
instruction waits while one of those has not; so it does for those that an acquire names (R163). Once nothing is outstanding it issues.
FENCE itself always completes. -/
def Obligations.Fence : Prop :=
  (∀ (sc : BitVec 3) (o : BitVec 2) (s : State) (t : Turn) (m : Team) (g : Group), Ready (.fence sc o) s t m g →
    Leaves (.fence sc o) s t g (whereActing t (fun c th => { th with
      relFence := decide ((o = 2 ∨ o = 3) ∧ sc ≠ 0),
      fences := if o = 1 ∨ o = 3 then (s.openNear t.core t.tr t.grp c.lane).filterMap (fun e => match e.2.2 with
        | .store .. => none
        | _ => some e.1) else [] }))) ∧
  (∀ (i : Instr) (s : State) (t : Turn) (m : Team) (g : Group), isNearOrdered i = true ∨ isQuery i = true →
    s.turn = some t → s.team t.core t.tr = some m → m.groups[t.grp]? = some g →
    wordTraps i t g ((issueLanes t g).map (fun c => (c.lane, c.th))) = none →
    ((∃ c ∈ issueLanes t g, c.th.relFence = true ∧ s.outstanding t.core t.tr t.grp c.lane = true) → Interlocks i s t) ∧
    ((∃ c ∈ issueLanes t g, ∃ id, (id ∈ c.th.fences ∨ isNearOrdered i = true ∧ id ∈ c.th.acqs) ∧
      ((∃ e ∈ s.openNear t.core t.tr t.grp c.lane, e.1 = id) ∨ ∃ p ∈ c.th.pend, p.id = id ∧ p.known = false ∧ p.landed = false)) →
      Interlocks i s t)) ∧
  (∀ (i : Instr) (s : State) (t : Turn) (l : Nat) (th : Thread), th.pend = [] → s.openNear t.core t.tr t.grp l = [] →
    ∃ th', passOrder s t i l th = some th' ∧ { th' with relFence := th.relFence, acqs := th.acqs, fences := th.fences } = th)

/-- The check after each barrier event (R171): what it leaves is not complete, and it completes phases one after another as R171 lists. -/
def Obligations.BarrierPhases : Prop :=
  (∀ b : Barrier, ¬ b.met → b.after = (b, 0)) ∧
  (∀ b : Barrier, b.own → (0 < b.expa ∨ 0 < b.expb) → b.met → b.after.1 = b.completed.after.1) ∧
  (∀ b : Barrier, b.own → (0 < b.expa ∨ 0 < b.expb) → ¬ b.after.1.met) ∧
  (∀ b : Barrier, b.arrive false = if b.arr < b.expa then { b with arr := b.arr + 1 } else { b with pa := min (b.pa + 1) 0xFFFF, ovr := true }) ∧
  (∀ (b : Barrier) (n : Nat), b.bytes n = if b.byt + n < 2 ^ 33 then { b with byt := b.byt + n } else { b with byt := 2 ^ 33 - 1, ovr := true }) ∧
  (∀ (b : Barrier) (x : Nat), b.expect x = { b with xb := (b.xb + x) % 2 ^ 32 })

/-- BINIT, BARR and BEXP act on the team's barrier, lane by lane or once (R169, R174, R175); BINIT of two zeros is an illegal instruction with
DETAIL 6 that leaves the barrier. -/
def Sys2Proof.Claims.BarrierInstructions : Prop :=
  (∀ (n : BitVec 4) (a : BitVec 7) (b : Barrier) (c : LaneCtx) (s : State) (t : Turn) (m : Team) (g : Group), Issuing (.binit n a) s t m g →
    m.bars[n.toNat]? = some b → b.own → (actingLanes t g).head? = some c →
    let expa := ((c.th.rd a).extractLsb' 0 16).toNat
    let expb := ((c.th.rd a).extractLsb' 16 32).toNat
    (expa = 0 ∧ expb = 0 → LanesExist t g → ∃ cause, IsCause cause 1 0 6 ((actingLanes t g).map (·.lane)) ∧
      Traps (.binit n a) s t m g (fun c => c.th) cause (BitVec.ofNat 64 t.ipc) 0) ∧
    (¬ (expa = 0 ∧ expb = 0) → LeavesBars (.binit n a) s t m g (m.bars.set n.toNat (Barrier.after { b with
      expa := expa, expb := expb, arr := 0, byt := 0, xb := 0, pa := 0, ovr := b.ovr || b.arr != 0 || b.byt != 0 || b.pa != 0 }).1) m.rings
      (fun x => x.th.stepped t.len))) ∧
  (∀ (d : BitVec 7) (one : BitVec 1) (n : BitVec 4) (b : Barrier) (s : State) (t : Turn) (m : Team) (g : Group), Ready (.barr d one n) s t m g →
    Performed s t g → m.bars[n.toNat]? = some b → b.own → ¬ b.met → (0 < b.expa ∨ 0 < b.expb) →
    let r := arrivals (oneOf one (actingLanes t g)).length b
    LeavesBars (.barr d one n) s t m g (m.bars.set n.toNat r.1) m.rings (fun c =>
      if c.m.guard.getLsbD 0 then
        (c.th.stepped t.len).setReg (c.th.ix d.toNat) (BitVec.ofNat 64 (r.2.getD
          (if one = 1 then 0 else ((actingLanes t g).takeWhile (fun x => x.lane != c.lane)).length) 0))
      else c.th.stepped t.len)) ∧
  (∀ (one arr : BitVec 1) (n : BitVec 4) (a : BitVec 7) (b : Barrier) (s : State) (t : Turn) (m : Team) (g : Group),
    Ready (.bexp one arr n a) s t m g → (arr = 1 → Performed s t g) → m.bars[n.toNat]? = some b → b.own →
    LeavesBars (.bexp one arr n a) s t m g
      (m.bars.set n.toNat (expectations (arr == 1) ((oneOf one (actingLanes t g)).map (fun c => (c.th.rd a).toNat)) b)) m.rings
      (fun c => c.th.stepped t.len))

/-- An arrival waits until every near access of the arriving threads has been performed (R248): BARR, BEXP with an arrival, CBAR, COURSE, SRPUT and
SRREL; so does a CPOST, whose commands see its threads' older stores (R189). -/
def Sys2Proof.Claims.ArrivalsWait : Prop :=
  ∀ (i : Instr) (s : State) (t : Turn) (m : Team) (g : Group), (match i with
      | .barr .. | .cbar .. | .course _ | .srput .. | .srrel .. | .cpost .. => True
      | .bexp _ arr _ _ => arr = 1
      | _ => False) →
    Ready i s t m g → ¬ Performed s t g → Interlocks i s t

/-- BWAIT takes its predicate at once or blocks (R176), and BQRY reads the snapshot of R177, on the team's own barrier or, with CLU, on team 0's. -/
def Sys2Proof.Claims.BarrierReads : Prop :=
  ∀ (clu : BitVec 1) (n : BitVec 4) (b : Barrier) (m0 : Team) (s : State) (t : Turn) (m : Team) (g : Group),
    let p := if clu = 1 then m.ids.peers.headD (t.core, t.tr) else (t.core, t.tr)
    s.team p.1 p.2 = some m0 → m0.bars[n.toNat]? = some b →
    (∀ (pd : BitVec 4) (a : BitVec 7), Ready (.bwait pd a clu n) s t m g →
      Leaves (.bwait pd a clu n) s t g (whereActing t (fun c _ =>
        waits t pd.toNat n.toNat (clu == 1) b ((c.th.rd a).extractLsb' 0 32).toNat c))) ∧
    (∀ (d : BitVec 7) (sel : BitVec 2), Ready (.bqry d clu sel n) s t m g → sel ≠ 3 →
      (b.arr < 2 ^ 16 ∧ b.c < 2 ^ 32 ∧ b.byt < 2 ^ 33 ∧ b.expa < 2 ^ 16 ∧ b.expb < 2 ^ 32) →
      Executes (.bqry d clu sel n) s t g [d.toNat] [] (fun c th' => SameFlags c.th th' ∧
        let v := th'.reg (c.th.ix d.toNat)
        if c.m.guard.getLsbD 0 = false then v = c.th.rd d
        else if sel = 0 then (v.extractLsb' 0 32).toNat = b.c ∧ (v.extractLsb' 32 16).toNat = b.arr ∧ v.getLsbD 48 = b.ovr ∧
          v.getLsbD 49 = b.errh.testBit 0 ∧ v.getLsbD 50 = b.closed ∧ v.getLsbD 51 = b.errs ∧ v.extractLsb' 52 12 = 0
        else if sel = 1 then (v.extractLsb' 0 33).toNat = b.byt ∧ v.extractLsb' 33 31 = BitVec.ofNat 31 b.xb
        else (v.extractLsb' 0 16).toNat = b.expa ∧ (v.extractLsb' 16 32).toNat = b.expb ∧ v.extractLsb' 48 16 = 0))

/-- CBAR sends the acting lanes' arrivals to a barrier of team 0, each lane's D pending until they are counted there (R178); COURSE blocks
every acting lane, or traps in a grid that is not bound whole (R179); KWAIT blocks while the class's counter is above its limit (R180). -/
def Obligations.WaitInstructions : Prop :=
  (∀ (d : BitVec 7) (one : BitVec 1) (n : BitVec 4) (s : State) (t : Turn) (m : Team) (g : Group), Ready (.cbar d one n) s t m g →
    Performed s t g → actingLanes t g ≠ [] →
    let p := m.ids.peers.headD (t.core, t.tr)
    let lanes := (actingLanes t g).map (·.lane)
    let q : CbarArrival :=
      { fromCore := t.core, fromRec := t.tr, toRec := p.2, bar := n.toNat, grp := t.grp, lanes := lanes, one := one == 1, pend := s.tick }
    ∃ s', exec (.cbar d one n) s = .next s' ∧ TouchesOnly (s.setCore p.1 { s.core p.1 with cbars := (s.core p.1).cbars ++ [q] }) s' t ∧
      SameMemory s s' ∧ ∀ c ∈ issueLanes t g, ∃ th', s'.threadAt t.core t.tr t.grp c.lane = some th' ∧
        { th' with pend := [] } = c.th.stepped t.len ∧
        if c.m.guard.getLsbD 0 then ∃ w, th'.pend = [w] ∧ w.id = s.tick ∧ w.regs = [(c.th.ix d.toNat, none)] ∧ w.awaitAll = true
        else th'.pend = []) ∧
  (∀ (p : BitVec 4) (s : State) (t : Turn) (m : Team) (g : Group), Issuing (.course p) s t m g →
    (m.env.stream = false → Performed s t g → Leaves (.course p) s t g (whereActing t (fun _ th => { th with status := .wait (.course p.toNat) }))) ∧
    (m.env.stream = true → actingLanes t g ≠ [] → LanesExist t g → ∃ cause, IsCause cause 1 0 6 ((actingLanes t g).map (·.lane)) ∧
      Traps (.course p) s t m g (fun c => c.th) cause (BitVec.ofNat 64 t.ipc) 0)) ∧
  (∀ (n : BitVec 7) (hi cls : BitVec 2) (s : State) (t : Turn) (m : Team) (g : Group), Ready (.kwait n hi cls) s t m g →
    Leaves (.kwait n hi cls) s t g (whereActing t (fun _ th =>
      if g.counters.getD cls.toNat 0 ≤ (hi ++ n).toNat then th else { th with status := .wait (.counter cls.toNat (hi ++ n).toNat) })))

/-- SRINIT sets a ring OPEN and re-initialises its barriers but for OVR, or traps with DETAIL 6 on a ring in use or on settings of zero and
leaves the ring (R181); a ring whose producer groups have all ended begins to close at once (R183). Threads that are blocked on a phase that
has completed remember it (R176). -/
def Sys2Proof.Claims.RingInit : Prop :=
  ∀ (f : BitVec 4) (r : BitVec 2) (a : BitVec 7) (role : BitVec 2) (n2 : BitVec 3) (c : LaneCtx) (s : State) (t : Turn) (m : Team) (g : Group),
    let i : Instr := .srinit f r a role n2
    let full := ((c.th.rd a).extractLsb' 0 16).toNat
    let empty := ((c.th.rd a).extractLsb' 16 16).toNat
    let expb := ((c.th.rd a).extractLsb' 32 32).toNat
    let n := n2.toNat + 2
    let inUse := ∃ q, m.rings.find r.toNat = some q ∧ q.st ≠ .closed
    let bars := m.bars.mapIdx (fun k b =>
      if f.toNat ≤ k ∧ k < f.toNat + 2 * n then
        if (k - f.toNat) % 2 = 0 then { Barrier.fresh full expb with ovr := b.ovr } else { Barrier.fresh empty 0 with ovr := b.ovr }
      else b)
    let ended := fun (q : Ring) => q.st = .opened ∧ q.role ≠ 0 ∧ ∀ g1 ∈ m.groups, g1.role = q.role → ∀ th ∈ g1.threads, th.status = .exited
    let rings := (m.rings.insert r.toNat { n := n, bF := f.toNat, role := role.toNat, st := .opened, awaits := none }).map (fun e =>
      if ended e.2 then (e.1, { e.2 with st := .closing, awaits := none }) else e)
    i.wf → Issuing i s t m g → (actingLanes t g).head? = some c → m.bars.length = 16 →
    (inUse ∨ empty = 0 ∨ (full = 0 ∧ expb = 0) → LanesExist t g → ∃ cause, IsCause cause 1 0 6 ((actingLanes t g).map (·.lane)) ∧
      Traps i s t m g (fun c => c.th) cause (BitVec.ofNat 64 t.ipc) 0) ∧
    (¬ inUse → empty ≠ 0 → ¬ (full = 0 ∧ expb = 0) → ∃ s' s0 s1 m0, exec i s = .next s' ∧ Latched s s0 t m ∧ s0.team t.core t.tr = some m0 ∧
      BarsBecome s0 s1 t m0 bars rings ∧ TouchesOnly s1 s' t ∧ SameMemory s s' ∧
      ∀ x ∈ issueLanes t g, s'.threadAt t.core t.tr t.grp x.lane = some (x.th.stepped t.len))

/-- SRACQ, SRGET, SRPUT, SRREL and SRCLOSE act on the stage that each lane's cursor names (R182, R183); on an unset ring they trap with
DETAIL 6. -/
def Sys2Proof.Claims.RingInstructions : Prop :=
  ∀ (r : BitVec 2) (s : State) (t : Turn) (m : Team) (g : Group),
    (∀ i : Instr, (∃ p a, i = .sracq p a r ∨ i = .srget p a r) ∨ (∃ x e a b, i = .srput x e r a b) ∨ (∃ e a, i = .srrel e r a) ∨ i = .srclose r →
      Issuing i s t m g → actingLanes t g ≠ [] → LanesExist t g → m.rings.find r.toNat = none →
      ∃ cause, IsCause cause 1 0 6 ((actingLanes t g).map (·.lane)) ∧ Traps i s t m g (fun c => c.th) cause (BitVec.ofNat 64 t.ipc) 0) ∧
    ∀ q : Ring, m.rings.find r.toNat = some q → 0 < q.n → q.bF + 2 * q.n ≤ m.bars.length → actingLanes t g ≠ [] →
      (∀ (p : BitVec 4) (a : BitVec 7), Ready (.sracq p a r) s t m g →
        Leaves (.sracq p a r) s t g (whereActing t (fun c th =>
          let k := (c.th.rd a).toNat
          if q.st = .closed then th.setPred p.toNat 0x00
          else if k / q.n % 2 ^ 32 = 0 then th.setPred p.toNat 0xFF
          else waits t p.toNat (q.bF + 2 * (k % q.n) + 1) false (m.bars.getD (q.bF + 2 * (k % q.n) + 1) (Barrier.fresh 0 0))
            (k / q.n % 2 ^ 32 - 1) c))) ∧
      (∀ (p : BitVec 4) (a : BitVec 7), Ready (.srget p a r) s t m g →
        Leaves (.srget p a r) s t g (whereActing t (fun c _ =>
          let k := (c.th.rd a).toNat
          waits t p.toNat (q.bF + 2 * (k % q.n)) false (m.bars.getD (q.bF + 2 * (k % q.n)) (Barrier.fresh 0 0)) (k / q.n % 2 ^ 32) c))) ∧
      (∀ (x one : BitVec 1) (a b : BitVec 7), Ready (.srput x one r a b) s t m g → Performed s t g → (∀ e ∈ m.bars, e.own) →
        LeavesBars (.srput x one r a b) s t m g (ringRun q 0 ((oneOf one (actingLanes t g)).map (fun c =>
          (c.th.rd a, if x = 1 then some (c.th.rd b).toNat else none))) m.bars) m.rings (fun c => c.th.stepped t.len)) ∧
      (∀ (one : BitVec 1) (a : BitVec 7), Ready (.srrel one r a) s t m g → Performed s t g → (∀ e ∈ m.bars, e.own) →
        LeavesBars (.srrel one r a) s t m g (ringRun q 1 ((oneOf one (actingLanes t g)).map (fun c => (c.th.rd a, none))) m.bars) m.rings
          (fun c => c.th.stepped t.len)) ∧
      (Ready (.srclose r) s t m g → q.st = .opened →
        let named := (s.core t.core).hod.flight.filter (fun f => !f.done && f.queue == 0 && f.tr == t.tr &&
          decide (q.bF ≤ f.bar ∧ f.bar < q.bF + 2 * q.n))
        LeavesBars (.srclose r) s t m g m.bars (m.rings.insert r.toNat { q with st := .closing, awaits := some (named.map (·.seq)) })
          (fun c => c.th.stepped t.len))

/-- CVSET declares a convergence register over 1, 2, 4 or 8 groups of the team and clears its phase and every signature, or traps with DETAIL 6
(R184); CVWAIT blocks until the phase its thread last signed has completed, and passes a thread that has not signed; SIGN and CVWAIT on a
register that is unset or without the group trap with DETAIL 6 (R185). -/
def Sys2Proof.Claims.ConvergenceRegisters : Prop :=
  (∀ (a : BitVec 7) (cv : BitVec 3) (c : LaneCtx) (s : State) (t : Turn) (m : Team) (g : Group), Issuing (.cvset a cv) s t m g →
    (actingLanes t g).head? = some c →
    let ms := (List.range 32).filter (fun k => (c.th.rd a).getLsbD k)
    let bad := ms.length ∉ [1, 2, 4, 8] ∨ (∃ k ∈ ms, m.groups.length ≤ k) ∨ ∃ v, m.cvs.find cv.toNat = some v ∧ ∃ g' ∈ m.groups,
      ∃ th ∈ g'.threads, (∃ k, th.signed.find cv.toNat = some k ∧ v.q < k) ∨ ∃ w, th.status = .wait (.matrix w) ∧ w.cv = cv.toNat
    (bad → LanesExist t g → ∃ cause, IsCause cause 1 0 6 ((actingLanes t g).map (·.lane)) ∧
      Traps (.cvset a cv) s t m g (fun c => c.th) cause (BitVec.ofNat 64 t.ipc) 0) ∧
    (¬ bad → ∃ s' m', exec (.cvset a cv) s = .next s' ∧ SameMemory s s' ∧ s'.team t.core t.tr = some m' ∧
      m'.cvs = m.cvs.insert cv.toNat { members := ms, q := 0, ready := none } ∧ { m' with cvs := m.cvs, groups := m.groups } = m ∧
      (∀ (k : Nat) (g' : Group), m'.groups[k]? = some g' → ∀ th ∈ g'.threads, th.signed.find cv.toNat = none) ∧
      ∀ x ∈ issueLanes t g, s'.threadAt t.core t.tr t.grp x.lane =
        some { x.th.stepped t.len with signed := x.th.signed.erase cv.toNat })) ∧
  (∀ (cv : BitVec 3) (v : Cv) (s : State) (t : Turn) (m : Team) (g : Group), Ready (.cvwait cv) s t m g → actingLanes t g ≠ [] →
    m.cvs.find cv.toNat = some v →
    Leaves (.cvwait cv) s t g (whereActing t (fun c th => match c.th.signed.find cv.toNat with
      | none => th
      | some k => if k ≤ phasesDone m cv.toNat v then th else { th with status := .wait (.cvwait cv.toNat (k - 1)) }))) ∧
  (∀ (wait : Bool) (cv : BitVec 3) (s : State) (t : Turn) (m : Team) (g : Group),
    let i : Instr := if wait then .cvwait cv else .sign cv
    Issuing i s t m g → actingLanes t g ≠ [] → LanesExist t g → (∀ v, m.cvs.find cv.toNat = some v → t.grp ∉ v.members) →
    ∃ cause, IsCause cause 1 0 6 ((actingLanes t g).map (·.lane)) ∧ Traps i s t m g (fun c => c.th) cause (BitVec.ofNat 64 t.ipc) 0)

/-- SIGN signs the current phase for each acting thread, or the next one once the current one is complete, or blocks a thread that has signed it
already; it signs the next phase as soon as this one completes. A phase that every thread of every member group has signed, with no arrival
standing, advances at once (R185). -/
def Sys2Proof.Claims.Sign : Prop :=
  ∀ (cv : BitVec 3) (v : Cv) (s : State) (t : Turn) (m : Team) (g : Group), Ready (.sign cv) s t m g → actingLanes t g ≠ [] →
    m.cvs.find cv.toNat = some v →
    ∃ s' m' v', exec (.sign cv) s = .next s' ∧ SameMemory s s' ∧ s'.team t.core t.tr = some m' ∧ m'.cvs.find cv.toNat = some v' ∧
      v'.members = v.members ∧ { m' with cvs := m.cvs, groups := m.groups } = m ∧
      (∀ x ∈ issueLanes t g, ∃ th', s'.threadAt t.core t.tr t.grp x.lane = some th' ∧
        let th := x.th.stepped t.len
        let n := (x.th.signed.find cv.toNat).getD 0
        if x.m.guard.getLsbD 0 = false then th' = th
        else if n ≤ phasesDone m cv.toNat v then th' = { th with signed := x.th.signed.insert cv.toNat (max v.q n + 1) }
        else th' = { th with status := .wait (.sign cv.toNat) } ∨
          (v.q < v'.q ∧ th' = { th with status := .wait (.sign cv.toNat), signed := x.th.signed.insert cv.toNat (n + 1), met := some 0 })) ∧
      let passes := counting m' v ≠ [] ∧ ∀ th ∈ counting m' v, v.q < (th.signed.find cv.toNat).getD 0 ∧
        ∀ w, th.status = .wait (.matrix w) → w.cv ≠ cv.toNat
      (passes ∧ v.q < v'.q) ∨ (¬ passes ∧ v'.q = v.q)

end

namespace Sys2Proof.Machine


/-! ### Commands (R188 to R193) -/

/-- A state in which only one team's group counters and barriers, its core's hod, one region entry, the messages to peers and the tasks' states
may differ. -/
structure CmdBecomes (s s1 : State) (t : Turn) (m : Team) (bars : List Barrier) : Prop where
  rest : { s1 with cores := s.cores, sched := s.sched, ctxs := s.ctxs, host := s.host } = s
  cores : ∀ c, c ≠ t.core → s1.core c = s.core c
  core : { s1.core t.core with teams := (s.core t.core).teams, hod := (s.core t.core).hod } = s.core t.core
  teams : ∀ r, r ≠ t.tr → s1.team t.core r = s.team t.core r
  team : ∃ m1, s1.team t.core t.tr = some m1 ∧ { m1 with groups := m.groups } = { m with bars := bars } ∧
    ∀ k, k ≠ t.grp → m1.groups[k]? = m.groups[k]?
  sched : { s1.sched with tasks := s.sched.tasks, tposts := s.sched.tposts } = s.sched

/-- The task has passed a commit point (R191, R345). -/
def Commits (s s' : State) (task : Nat) : Prop :=
  ∀ x, s.sched.tasks.find task = some x → ∃ x', s'.sched.tasks.find task = some x' ∧ (x.state = .opened → x'.state = .committed)

/-- The command that a packet holds makes its CPOST a commit point (R191): a send, or, at device memory or the tile store, an ATOMIC, a SCATRED or
a combining COPY. -/
def commitPoint (p : BitVec 512) : Prop :=
  let op := (p.extractLsb' 0 5).toNat
  let redop := (p.extractLsb' 19 4).toNat
  let dst := (p.extractLsb' 48 3).toNat
  dst = 4 ∨ ((dst = 0 ∨ dst = 2) ∧ (op = 9 ∨ op = 4 ∨ (op = 1 ∧ 1 ≤ redop ∧ redop ≤ 6)))

/-- The packet of a lane (R189): register A + k is its dword k. -/
def IsPacket (c : LaneCtx) (a : BitVec 7) (p : BitVec 512) : Prop := ∀ k, k < 8 → p.extractLsb' (64 * k) 64 = c.th.reg (c.th.ix (a.toNat + k))

/-- What RGQRY reads (R193, R339): by the entries that cover the address, lowest index first. -/
def RegionIs (k : Ctx) (va : Nat) (v : Word) : Prop :=
  let cs := k.regions.filter (fun e => e.2.valid && decide (e.2.base * 65536 ≤ va) && decide (va < (e.2.base + e.2.size) * 65536))
  match cs with
  | [] => v = 0
  | e :: _ =>
    let tail := e.1 * 2 ^ 16 + min cs.length 255 * 2 ^ 24
    (∀ n, 0 < n → (∃ x ∈ cs, x.2.fcount = n) → (∀ x ∈ cs, x.2.fcount ≤ n) → v = BitVec.ofNat 64 (3 + n * 2 ^ 8 + tail)) ∧
    ((∀ x ∈ cs, x.2.fcount = 0) →
      v = BitVec.ofNat 64 (if ∃ x ∈ cs, x.2.thawing = true then 4 + tail else if e.2.priv then 2 + e.2.ownerDie * 2 ^ 3 + tail else 1 + tail))

end Sys2Proof.Machine

section
open Sys2Proof Sys2Proof.Machine

/-- CPOST copies each acting lane's packet to queue 0 in lane order, raises the group's counter of its CLASS, gives the lane its sequence number as
a late result, and commits the task where a packet is a commit point (R189, R191); commands of class 3 take their places in the posting order
that they share with matrix operations (R27, R133), and a thread whose KWAIT a counter had satisfied remembers it (R180). It waits while the
queue or a counter has no room. -/
def Sys2Proof.Claims.PostCommands : Prop :=
  ∀ (d a : BitVec 7) (l : BitVec 4) (s : State) (t : Turn) (m : Team) (g : Group), Ready (.cpost d a l) s t m g →
    let ls := actingLanes t g
    let h := (s.core t.core).hod
    let classes := fun (k : Nat) => (ls.filter (fun c => ((c.th.reg (c.th.ix a.toNat)).extractLsb' 29 2).toNat == k)).length
    (128 < h.q0.length + ls.length ∨ (∃ k, k < 4 ∧ 256 < g.counters.getD k 0 + classes k) →
      Interlocks (.cpost d a l) s t) ∧
    (Performed s t g → h.q0.length + ls.length ≤ 128 → (∀ k, k < 4 → g.counters.getD k 0 + classes k ≤ 256) →
      ∃ s' s1 qs fs g1, exec (.cpost d a l) s = .next s' ∧ CmdBecomes s s1 t m m.bars ∧ s1.ctxs = s.ctxs ∧ s1.host = s.host ∧
        s1.sched.tposts = s.sched.tposts ∧ TouchesOnly s1 s' t ∧ SameMemory s s' ∧
        (s1.core t.core).hod = { h with seq := h.seq + ls.length, q0 := h.q0 ++ qs, flight := h.flight ++ fs } ∧
        qs.length = ls.length ∧ fs.length = ls.length ∧
        (∀ (j : Nat) (c : LaneCtx), ls[j]? = some c → ∃ p, IsPacket c a p ∧
          qs[j]? = some { pkt := p, tr := t.tr, grp := t.grp, task := m.ids.task, ctx := m.ids.ctx, seq := h.seq + j } ∧
          fs[j]? = some { queue := 0, ring := 0, ctx := m.ids.ctx, seq := h.seq + j, tr := t.tr, grp := t.grp, task := m.ids.task,
                          cls := (p.extractLsb' 29 2).toNat, bar := (p.extractLsb' 24 4).toNat, done := false }) ∧
        ((s1.team t.core t.tr).bind (fun m1 => m1.groups[t.grp]?)) = some g1 ∧
        { g1 with counters := g.counters, posted := g.posted, threads := g.threads } = g ∧
        g1.posted = g.posted ++ (qs.filter (fun q => q.pkt.extractLsb' 29 2 == 3)).map (fun q => (commandPost q.seq, false)) ∧
        (∀ (k : Nat) (th : Thread), g.threads[k]? = some th → ∃ th1, g1.threads[k]? = some th1 ∧ { th1 with met := th.met } = th ∧
          th1.met = match th.status with
            | .wait (.counter cls n) => if ls ≠ [] ∧ th.met = none ∧ g.counters.getD cls 0 ≤ n then some 0 else th.met
            | _ => th.met) ∧
        (∀ (k v : Nat), g.counters[k]? = some v → g1.counters[k]? = some (v + classes k)) ∧
        ((∃ q ∈ qs, commitPoint q.pkt) → Commits s s' m.ids.task) ∧ ((∀ q ∈ qs, ¬ commitPoint q.pkt) → s'.sched = s.sched) ∧
        ∀ c ∈ issueLanes t g, ∃ th', Outcome s' t c th' ∧ Advanced [d.toNat] [] t c.th th' ∧ SameFlags c.th th' ∧
          (c.m.guard.getLsbD 0 = false → th'.reg (c.th.ix d.toNat) = c.th.rd d) ∧
          ∀ j, ls[j]? = some c → th'.reg (c.th.ix d.toNat) = BitVec.ofNat 64 (h.seq + j))

/-- TPOST sends each acting lane's record, held for the commands that its group has open, and is a commit point; it writes no register and no
counter (R190, R191). It waits while its core's record buffer holds 8 records (R316). -/
def Sys2Proof.Claims.PostRecords : Prop :=
  ∀ (a : BitVec 7) (s : State) (t : Turn) (m : Team) (g : Group), Ready (.tpost a) s t m g → actingLanes t g ≠ [] →
    let waiting := (s.sched.tposts.filter (fun r => r.core == t.core && r.waiting)).length
    (8 ≤ waiting → Interlocks (.tpost a) s t) ∧
    (waiting < 8 → ∃ s' s1 rs, exec (.tpost a) s = .next s' ∧ CmdBecomes s s1 t m m.bars ∧ s1.ctxs = s.ctxs ∧ s1.host = s.host ∧ s1.cores = s.cores ∧
      TouchesOnly s1 s' t ∧ SameMemory s s' ∧ s'.sched.tposts = s.sched.tposts ++ rs ∧ rs.length = (actingLanes t g).length ∧
      (∀ (j : Nat) (c : LaneCtx), (actingLanes t g)[j]? = some c → ∃ p aw, IsPacket c a p ∧
        rs[j]? = some { core := t.core, tr := t.tr, grp := t.grp, task := m.ids.task, grid := m.ids.grid, ctx := m.ids.ctx, awaits := aw, data := p,
                        waiting := false } ∧
        ∀ q, q ∈ aw ↔ ∃ f ∈ (s.core t.core).hod.flight, f.seq = q ∧ f.done = false ∧ f.queue = 0 ∧ f.tr = t.tr ∧ f.grp = t.grp) ∧
      Commits s s' m.ids.task ∧ ∀ c ∈ issueLanes t g, s'.threadAt t.core t.tr t.grp c.lane = some (c.th.stepped t.len))

/-- FREEZE and THAW act once on the region entry that the lowest acting lane names, by the table of R192: the entry's new state, and an arrival on
the barrier at once, an arrival owed, the event held, or an error completion; the instruction is a commit point (R191). A freeze or thaw
begins with no die's copy of the entry changed yet (R339). -/
def Sys2Proof.Claims.FreezeAndThaw : Prop :=
  ∀ (thaw : Bool) (a : BitVec 7) (n : BitVec 4) (c : LaneCtx) (b : Barrier) (s : State) (t : Turn) (m : Team) (g : Group),
    let i : Instr := if thaw then .thaw a n else .freeze a n
    let v := (c.th.rd a).toNat
    let ctx := m.ids.ctx
    let r := s.region ctx v
    let asker := Asker.team t.core t.tr n.toNat m.ids.task m.ids.cluster
    let after := fun (b' : Barrier) (r' : Region) (out : List NetOut) =>
      ∃ s' s1, exec i s = .next s' ∧ CmdBecomes s s1 t m (m.bars.set n.toNat b') ∧ (s1.core t.core).hod = (s.core t.core).hod ∧
        s1.sched.tposts = s.sched.tposts ∧ s1.host = { s.host with netOut := s.host.netOut ++ out } ∧
        (∀ k, k ≠ ctx → s1.ctx k = s.ctx k) ∧ { s1.ctx ctx with regions := (s.ctx ctx).regions } = s.ctx ctx ∧
        (∀ j, j ≠ v → s1.region ctx j = s.region ctx j) ∧ s1.region ctx v = r' ∧ TouchesOnly s1 s' t ∧ SameMemory s s' ∧
        Commits s s' m.ids.task ∧ ∀ x ∈ issueLanes t g, s'.threadAt t.core t.tr t.grp x.lane = some (x.th.stepped t.len)
    Ready i s t m g → (actingLanes t g).head? = some c → m.bars[n.toNat]? = some b → b.own →
    (256 ≤ v ∨ r.valid = false → after b.errorComplete.1 r []) ∧
    (v < 256 → r.valid = true →
      (thaw = false →
        (r.draining = false → r.thawing = false → r.fcount = 0 →
          (∃ f ∈ (s.core t.core).hod.flight, f.done = false ∧ f.queue = 0 ∧ f.tr = t.tr) →
          ∃ aw, after b { r with held := r.held ++ [{ thaw := false, asker := asker, awaits := aw }] } [] ∧
            ∀ q, q ∈ aw ↔ ∃ f ∈ (s.core t.core).hod.flight, f.seq = q ∧ f.done = false ∧ f.queue = 0 ∧ f.tr = t.tr) ∧
        (r.draining = false → r.thawing = false → r.fcount = 0 → (∀ f ∈ (s.core t.core).hod.flight, f.done = true ∨ f.queue ≠ 0 ∨ f.tr ≠ t.tr) →
          after b { r with fcount := 1, draining := true, owes := [asker], lag := 0xF, wasCount := 0, wasThawing := false } []) ∧
        (r.draining = true → r.fcount < 255 → after b { r with fcount := r.fcount + 1, owes := r.owes ++ [asker] } []) ∧
        (r.draining = false → r.thawing = false → 0 < r.fcount → r.fcount < 255 →
          after (b.event (·.arrive false)) { r with fcount := r.fcount + 1 } []) ∧
        (r.draining = false → r.thawing = true → ∃ aw, after b { r with held := r.held ++ [{ thaw := false, asker := asker, awaits := aw }] } []) ∧
        (r.draining = true ∨ r.thawing = false → r.fcount = 255 → after b.errorComplete.1 r [])) ∧
      (thaw = true →
        (r.draining = true → after b { r with held := r.held ++ [{ thaw := true, asker := asker, awaits := [] }] } []) ∧
        (r.draining = false → r.thawing = false → 1 < r.fcount → after (b.event (·.arrive false)) { r with fcount := r.fcount - 1 } []) ∧
        (r.draining = false → r.thawing = false → r.fcount = 1 →
          let ps := (List.range 16).filter (fun j => (s.ctx ctx).peers.getLsbD j)
          after b { r with fcount := 0, thawing := true, owes := [asker], peersLeft := ps, since := s.ns, lag := 0xF, wasCount := 1,
                           wasThawing := false } (ps.map (fun j => .collect ctx j v))) ∧
        (r.draining = false → r.thawing = true ∨ r.fcount = 0 → after b.errorComplete.1 r [])))

/-- RGQRY and GWQRY write each acting lane's D with the snapshot of R193, as a late result; nothing else changes. -/
def Sys2Proof.Claims.Queries : Prop :=
  ∀ (d a : BitVec 7) (l : BitVec 4) (s : State) (t : Turn) (m : Team) (g : Group),
    (Ready (.rgqry d a l) s t m g → Executes (.rgqry d a l) s t g [d.toNat] [] (fun c th' => SameFlags c.th th' ∧
      if c.m.guard.getLsbD 0 then RegionIs (s.ctx m.ids.ctx) (c.th.rd a).toNat (th'.reg (c.th.ix d.toNat)) else th'.reg (c.th.ix d.toNat) = c.th.rd d)) ∧
    (Ready (.gwqry d a l) s t m g → Executes (.gwqry d a l) s t g [d.toNat] [] (fun c th' => SameFlags c.th th' ∧
      let v := th'.reg (c.th.ix d.toNat)
      let w := (c.th.rd a).toNat
      let die := t.core / 48
      let fault := s.windowFault die m.ids.ctx w
      if c.m.guard.getLsbD 0 = false then v = c.th.rd d
      else if 64 ≤ w then v = 0
      else match (s.die die).windows.find w with
        | none => v = if fault then 2 else 0
        | some b => if b.ctx ≠ m.ids.ctx then v = 0
          else v.getLsbD 0 = true ∧ v.getLsbD 1 = fault ∧ v.extractLsb' 2 14 = 0 ∧
            v.extractLsb' 16 32 = BitVec.ofNat 32 (Table.get 0 (s.die die).oor w) ∧ v.extractLsb' 48 16 = 0))

/-- An instruction that acts for its issue set or lane by lane, with its guard false in every lane, only moves its threads on (R169). -/
def Obligations.NoLaneActs : Prop :=
  ∀ (i : Instr) (s : State) (t : Turn) (m : Team) (g : Group), (match i with
      | .binit .. | .barr .. | .bexp .. | .bwait .. | .cbar .. | .course _ | .kwait .. | .srinit .. | .sracq .. | .srput .. | .srget ..
      | .srrel .. | .srclose _ | .cvset .. | .sign _ | .cvwait _ | .tpost _ | .freeze .. | .thaw .. => True
      | _ => False) →
    Ready i s t m g → actingLanes t g = [] → Leaves i s t g (fun c => c.th.stepped t.len)

end

namespace Sys2Proof.Machine


/-! ### The matrix engine (R125 to R153) -/

/-- The registers that a matrix word's operands name (R125, R135, R140, R143): A, B, accumulator input and destinations. -/
def tileOperands (th : Thread) (i : Instr) : List Nat × List Nat × List Nat × List Nat :=
  let r := fun (f : BitVec 7) (n : Nat) => (List.range n).map (fun k => th.ix (f.toNat + k))
  let tile := fun (t : BitVec 4) => if t = 1 then 8 else 4
  match i with
  | .mma d a b _ _ z _ _ _ ta _ => (r a 4, r b 4, if z = 1 then [] else r d (tile ta), r d (tile ta))
  | .mmas d a b _ _ z _ _ _ ta _ pat => (r a (if ta = 7 ∧ pat = 0 then 6 else 5), r b 8, if z = 1 then [] else r d 4, r d 4)
  | .mtrn d b _ _ t | .mperm d b _ _ _ t _ _ | .mrsum d b _ _ t _ => ([], r b (tile t), [], r d (tile t))
  | .mvt d a _ _ _ z mm kk _ => (r a (kk.toNat / 2 + 1), [], if z = 1 then [] else r d (mm.toNat / 2 + 1), r d (mm.toNat / 2 + 1))
  | _ => ([], [], [], [])

/-- The convergence register of a matrix word. -/
def namesCv : Instr → Option Nat
  | .mma _ _ _ _ _ _ _ _ cv _ _ | .mmas _ _ _ _ _ _ _ _ cv _ _ _ | .mtrn _ _ _ cv _ | .mperm _ _ _ _ cv _ _ _
  | .mrsum _ _ _ cv _ _ | .mtok cv _ => some cv.toNat
  | _ => none

/-- What a lane supplies to an operation (R130), from registers that no older result awaits. -/
structure Supplies (i : Instr) (t : Turn) (c : LaneCtx) (post id : Nat) (w : Arrival) : Prop where
  instr : w.instr = i
  ipc : w.ipc = t.ipc
  posting : w.post = post
  pend : w.pend = id
  guard : w.guard = c.m.guard
  nft : w.nft = c.m.nft
  a : w.a = (tileOperands c.th i).1.map c.th.reg
  b : w.b = (tileOperands c.th i).2.1.map (fun r => .val (c.th.reg r))
  d : w.d = (tileOperands c.th i).2.2.1.map (fun r => .val (c.th.reg r))
  dRegs : w.dRegs = (tileOperands c.th i).2.2.2
  dOld : w.dOld = (tileOperands c.th i).2.2.2.map c.th.reg

/-- A matrix result that has not landed: it awaits the thread's destinations (R67). -/
def Awaits (th th' : Thread) (i : Instr) (id : Nat) : Prop :=
  match i with
  | .mtok .. => th'.pend = []
  | _ => ∃ w, th'.pend = [w] ∧ w.id = id ∧ w.matrix = true ∧ w.preds = [] ∧ w.regs = (tileOperands th i).2.2.2.map (fun r => (r, none))

/-- A group that has posted one more operation (R27, R133); a thread whose KWAIT a counter had satisfied remembers it (R180). -/
def Group.onePosted (g : Group) (id : Nat) : Group :=
  { g with posted := g.posted ++ [(id, false)], counters := g.counters.set 3 (g.counters.getD 3 0 + 1),
           threads := g.threads.map (fun th => match th.status with
             | .wait (.counter k n) => if th.met = none ∧ g.counters.getD k 0 ≤ n then { th with met := some 0 } else th
             | _ => th) }

/-- A step at a convergence register: its readiness is noted, and threads that wait in SIGN there may have signed their next phase (R129, R185);
nothing else changes. -/
structure CvMoves (s s' : State) (t : Turn) (cv : Nat) : Prop where
  rest : { s' with cores := s.cores } = s
  cores : ∀ c, c ≠ t.core → s'.core c = s.core c
  core : { s'.core t.core with teams := (s.core t.core).teams } = s.core t.core
  teams : ∀ r, r ≠ t.tr → s'.team t.core r = s.team t.core r
  team : ∀ m, s.team t.core t.tr = some m → ∃ m', s'.team t.core t.tr = some m' ∧ { m' with groups := m.groups, cvs := m.cvs } = m ∧
    (∀ k, (m'.cvs.find k).map (fun v => { v with ready := none }) = (m.cvs.find k).map (fun v => { v with ready := none })) ∧
    ∀ (k : Nat) (g : Group), m.groups[k]? = some g → ∃ g', m'.groups[k]? = some g' ∧ { g' with threads := g.threads } = g ∧
      ∀ (l : Nat) (th : Thread), g.threads[l]? = some th → ∃ th', g'.threads[l]? = some th' ∧
        (th' = th ∨ (th.status = .wait (.sign cv) ∧ { th' with signed := th.signed, met := th.met } = th))

/-- An 8-bit element of a fragment's registers (R126). -/
def byteOf (rs : List Word) (p : Nat) : BitVec 8 := elem 8 (rs.getD (p / 8) 0) (p % 8)

/-- The integer of an 8-bit element by its type code: 11 is INT8 and 12 NAT8 (R125). -/
def intOf (t : BitVec 4) (x : BitVec 8) : Int := if t = 11 then x.toInt else x.toNat

end Sys2Proof.Machine

section
open Sys2Proof Sys2Proof.Machine

/-- MMA, MMAS, MTRN, MPERM, MRSUM and MTOK: every thread of the issue set signs and blocks with its registers read, and the group's first arrival
posts one operation, or waits while counter 3 stands at 256 (R27, R129, R130, R133, R146). With the last arrival the operation is ready, where
the token admits it (R129, R145). A word that names an unset register or one that does not count the group, or at which threads of the group
stand arrived with a word at another address, traps with DETAIL 6 (R131, R132). -/
def Sys2Proof.Claims.MatrixArrival : Prop :=
  ∀ (i : Instr) (cv : Nat) (s : State) (t : Turn) (m : Team) (g : Group), namesCv i = some cv → i.wf → m.captures = [] → LanesExist t g →
    let arrived := fun (th : Thread) (w : Arrival) => th.status = .wait (.matrix w) ∧ w.cv = cv
    (Issuing i s t m g → (∀ v, m.cvs.find cv = some v → t.grp ∈ v.members → ∃ th ∈ g.threads, ∃ w, arrived th w ∧ w.ipc ≠ t.ipc) →
      ∃ cause, IsCause cause 1 0 6 t.lanes ∧ Traps i s t m g (fun c => c.th) cause (BitVec.ofNat 64 t.ipc) 0) ∧
    (Ready i s t m g → 256 ≤ g.counters.getD 3 0 → (∀ th ∈ g.threads, ∀ w, ¬ arrived th w) → Interlocks i s t) ∧
    (∀ (v : Cv) (post : Nat) (g1 : Group), Ready i s t m g → m.cvs.find cv = some v → t.lanes ≠ [] → g.counters.length = 4 →
      s.engineLoad t.core + m.cvs.length ≤ 16 →
      ((∀ th ∈ g.threads, ∀ w, ¬ arrived th w) ∧ g.counters.getD 3 0 < 256 ∧ post = 2 * s.tick ∧ g1 = g.onePosted post) ∨
        ((∃ y, (g.arrivals cv).head? = some y ∧ post = y.arr.post) ∧ g1 = g) →
      ∃ s' s1 m' v', exec i s = .next s' ∧
        TouchesOnly (s.setTeam t.core t.tr { m with groups := m.groups.set t.grp g1 }) s1 t ∧ CvMoves s1 s' t cv ∧ SameMemory s s' ∧
        s'.team t.core t.tr = some m' ∧ m'.cvs.find cv = some v' ∧ v'.q = v.q ∧
        (v.ready = none → (∀ th ∈ counting m' v, v.q < (th.signed.find cv).getD 0 ∧ ∃ w, arrived th w) → (m.token = none ∨ m.token = some cv) →
          v'.ready = some (s.coreCycles t.core, g.slot)) ∧
        ∀ c ∈ issueLanes t g, ∃ th' w, s'.threadAt t.core t.tr t.grp c.lane = some th' ∧ th'.status = .wait (.matrix w) ∧ w.cv = cv ∧
          Supplies i t c post s.tick w ∧ Awaits c.th th' i s.tick ∧
          { th' with status := c.th.status, signed := c.th.signed, pend := [] } = c.th.stepped t.len ∧
          th'.signed = c.th.signed.insert cv (max (v.q + 1) ((c.th.signed.find cv).getD 0)))

/-- MVT probes the weight range of each lane with an active sub-element, and then enters the engine queue at once for its own group (R147 to R149,
R133); a failing lane in stop mode traps the issue set with code 6 (R148, R156). It waits while the queue is full or other operations are to
enter it first, or counter 3 stands at 256 (R27, R151). Under NFT every thread of the issue set awaits the result (R71, R149). -/
def Sys2Proof.Claims.MatrixVector : Prop :=
  ∀ (d a b : BitVec 7) (l : BitVec 4) (bfw z : BitVec 1) (mm kk : BitVec 4) (off : BitVec 13) (s : State) (t : Turn) (m : Team) (g : Group),
    let i : Instr := .mvt d a b l bfw z mm kk off
    let unit := if bfw = 1 then 2 else 4
    let size := (mm.toNat + 1) * (kk.toNat + 1) * unit
    let addr := fun (c : LaneCtx) => (c.th.rd b + BitVec.ofNat 64 (4 * off.toNat)).toNat
    let ls := (issueLanes t g).filter (fun c => onEl c.m.guard 2 0 || onEl c.m.guard 2 1)
    let fails := fun (c : LaneCtx) => decide (m.env.constSize < addr c + size ∨ addr c % unit ≠ 0)
    i.wf → Ready i s t m g →
    (∀ c0, (ls.filter fails).head? = some c0 → (∃ c ∈ ls, fails c = true ∧ c.th.xmode.getLsbD 5 = true) → LanesExist t g →
      ∃ cause, IsCause cause 6 0 (if m.env.constSize < addr c0 + size then 1 else 2) ((ls.filter fails).map (·.lane)) ∧
        Traps i s t m g (fun c => c.th) cause (BitVec.ofNat 64 t.ipc) (c0.th.rd b)) ∧
    let room := (s.core t.core).engine.length < 16 ∧ s.readyOps t.core = [] ∧ g.counters.getD 3 0 < 256
    let all := (issueLanes t g).any (fun c => c.m.nft)
    ((∀ c ∈ ls, fails c = false) → ¬ room → Interlocks i s t) ∧
    ((∀ c ∈ ls, fails c = false) → room → g.counters.length = 4 →
      ∃ s' o x, exec i s = .next s' ∧
        TouchesOnly ((s.setTeam t.core t.tr { m with groups := m.groups.set t.grp (g.onePosted (2 * s.tick)) }).modCore t.core (fun k =>
          { k with engine := k.engine ++ [o] })) s' t ∧ SameMemory s s' ∧
        o.tr = t.tr ∧ o.leader = i ∧ o.results = none ∧ o.constBase = m.env.constBase ∧ o.members = [x] ∧ x.grp = t.grp ∧ x.post = 2 * s.tick ∧
        x.lanes.map (·.lane) = (if all then issueLanes t g else ls).map (·.lane) ∧
        (∀ c ∈ ls, ∃ y ∈ x.lanes, y.lane = c.lane ∧ Supplies i t c (2 * s.tick) s.tick y.arr ∧ y.arr.sa = BitVec.ofNat 64 (addr c)) ∧
        (∀ y ∈ x.lanes, y.lane ∉ ls.map (·.lane) → y.arr.guard = 0 ∧ y.arr.dRegs = []) ∧
        ∀ c ∈ issueLanes t g, ∃ th', s'.threadAt t.core t.tr t.grp c.lane = some th' ∧ { th' with pend := [] } = c.th.stepped t.len ∧
          if onEl c.m.guard 2 0 || onEl c.m.guard 2 1 then Awaits c.th th' i s.tick
          else if all then ∃ w, th'.pend = [w] ∧ w.id = s.tick ∧ w.matrix = true ∧ w.hold = true ∧ w.regs = [] else th'.pend = [])

/-- An integer MMA (R126, R127, R137, R45): element (row, column) of the accumulator is its input plus the sum over the 64 positions of A times B,
modulo 2^32, in every active sub-element, with no flag; the other sub-elements keep their bits. -/
def Obligations.IntegerProducts : Prop :=
  ∀ (o : MatOp) (x : MatMember) (const : Memory) (tick : Nat) (A B : Nat → List Word) (d a b sa sb : BitVec 7) (l : BitVec 4) (z : BitVec 1) (cv : BitVec 3)
    (ta tb : BitVec 4), o.leader = .mma d a b l 0 z sa sb cv ta tb → (ta = 11 ∨ ta = 12) → (tb = 11 ∨ tb = 12) →
    o.a = (List.range 32).map (fun k => (k, A k)) → x.lanes.map (fun y => (y.lane, y.arr.b)) = (List.range 32).map (fun k => (k, (B k).map .val)) →
    ∀ y ∈ x.lanes, y.arr.dRegs.length = 4 → y.arr.dOld.length = 4 → ∃ r ∈ o.member const tick x, r.lane = y.lane ∧ r.grp = x.grp ∧ r.flags = 0 ∧
      r.bad = false ∧ r.regs.map (·.1) = y.arr.dRegs ∧
      ∀ (j i : Nat), j < 4 → i < 2 →
        let row := y.lane % 16
        let col := y.lane / 16 * 8 + 2 * j + i
        let input : Int := if z = 1 then 0 else (elem 32 ((y.arr.d.getD j (.val 0)).value) i).toNat
        ∃ v, (r.regs[j]?).map (·.2) = some v ∧ elem 32 v i =
          if onEl y.arr.guard 2 i then BitVec.ofInt 32 (input + ((List.range 64).map (fun k =>
            intOf ta (byteOf (A (row + 16 * (k / 32))) (k % 32)) * intOf tb (byteOf (B (col + 16 * (k / 32))) (k % 32)))).sum)
          else elem 32 (y.arr.dOld.getD j 0) i

/-- The engine's steps. MATRIX_OP_READY: an operation that is ready, every thread of every member arrived with agreeing words, and before which no
other of the core became ready, enters the queue, its threads run on and the register begins its next phase (R129, R131, R151).
MTOK_TAKES_EFFECT moves the token in the same way (R146). ENGINE_EXECUTE forms the oldest operation's results (R151). MATRIX_RESULT_LANDS lands
every member's results together, counts the operation down and frees the entry (R27, R133, R151): a result is readable from then on, or stands
beside the old value until its window is over (R68). -/
def Obligations.EngineSteps : Prop :=
  (∀ (core tr cv : Nat) (at_ : Nat × Nat) (m : Team) (v : Cv) (ms : List MatMember) (x : MatMember) (lead : MatLane) (s : State),
    s.team core tr = some m → m.state = .running → m.cvs.find cv = some v → v.ready = some at_ →
    (∀ k ∈ v.members, ∀ g, m.groups[k]? = some g → ∀ th ∈ g.threads, th.status ≠ .exited →
      th.signed.find cv = some (v.q + 1) ∧ ∃ w, th.status = .wait (.matrix w) ∧ w.cv = cv) →
    v.members.Nodup → ms = m.matMembers cv v → ms.head? = some x → x.lanes.head? = some lead →
    (∀ y ∈ ms, ∀ z ∈ y.lanes, z.arr.agrees lead.arr = true) →
    ((∀ c r, lead.arr.instr ≠ .mtok c r) → (s.core core).engine.length < 16 →
      (∀ e ∈ s.readyOps core, at_.1 < e.2.2.1 ∨ (at_.1 = e.2.2.1 ∧ at_.2 ≤ e.2.2.2)) →
      ∃ s' m' o, exec (.matrixOpReady core tr cv) s = .next s' ∧ SameMemory s s' ∧ s'.team core tr = some m' ∧
        (s'.core core).engine = (s.core core).engine ++ [o] ∧ o.tr = tr ∧ o.leader = lead.arr.instr ∧ o.members = ms ∧ o.results = none ∧
        m'.cvs.find cv = some { v with q := v.q + 1, ready := none } ∧ m'.token = m.token ∧
        ∀ y ∈ ms, ∀ z ∈ y.lanes, ∃ th th', s.threadAt core tr y.grp z.lane = some th ∧ s'.threadAt core tr y.grp z.lane = some th' ∧
          th'.status = .run ∧ th'.pc = th.pc ∧ th'.regs = th.regs) ∧
    (∀ (c : BitVec 3) (to_ : BitVec 4), lead.arr.instr = .mtok c to_ → s.engineLoad core + m.cvs.length ≤ 16 →
      ∃ s' m', exec (.mtokTakesEffect core tr cv) s = .next s' ∧ SameMemory s s' ∧ s'.team core tr = some m' ∧
        (to_ = 8 → m'.token = none) ∧
        (∀ v2, to_ ≠ 8 → m.cvs.find to_.toNat = some v2 → (∃ k ∈ v2.members, ∃ g ∈ m.groups[k]?, ∃ th ∈ g.threads, th.status ≠ .exited) →
          m'.token = some to_.toNat) ∧
        m'.cvs.find cv = some { v with q := v.q + 1, ready := none } ∧
        ∀ y ∈ ms, ∀ z ∈ y.lanes, ∃ th', s'.threadAt core tr y.grp z.lane = some th' ∧ th'.status = .run)) ∧
  (∀ (core : Nat) (o : MatOp) (rest : List MatOp) (s : State), (s.core core).engine = o :: rest → o.results = none → s.hours.poison = [] →
    (∀ q ∈ rest, q ≠ o) →
    ∃ s' o' rest', exec (.engineExecute core) s = .next s' ∧ SameMemory s s' ∧ (s'.core core).engine = o' :: rest' ∧ rest'.length = rest.length ∧
      o'.results = some (o.compute (s.core core).const s.tick) ∧ o'.leader = o.leader ∧ o'.tr = o.tr ∧
      o'.members.map (fun x => (x.grp, x.lanes.map (·.lane))) = o.members.map (fun x => (x.grp, x.lanes.map (·.lane)))) ∧
  (∀ (core : Nat) (o : MatOp) (rest : List MatOp) (rs : List MatResult) (m : Team) (s : State),
    (s.core core).engine = o :: rest → o.results = some rs → s.team core o.tr = some m → (o.members.map (·.grp)).Nodup →
    (∀ x ∈ o.members, (x.lanes.map (·.lane)).Nodup ∧ ∃ g, m.groups[x.grp]? = some g ∧ g.posted = [(x.post, false)] ∧
      g.counters.length = 4 ∧ 1 ≤ g.counters.getD 3 0) →
    (∀ x ∈ o.members, ∀ y ∈ x.lanes, y.arr.nft = false) →
    ∃ s', exec (.matrixResultLands core) s = .next s' ∧ SameMemory s s' ∧ (s'.core core).engine = rest ∧
      ∀ x ∈ o.members, ∃ m' g g', s'.team core o.tr = some m' ∧ m.groups[x.grp]? = some g ∧ m'.groups[x.grp]? = some g' ∧ g'.posted = [] ∧
        g'.counters = g.counters.set 3 (g.counters.getD 3 0 - 1) ∧
        ∀ y ∈ x.lanes, ∀ (r : MatResult) (th : Thread), rs.find? (fun r => r.grp = x.grp && r.lane = y.lane) = some r →
          g.threads[y.lane]? = some th → (∃ w ∈ th.pend, w.id = y.arr.pend ∧ w.matrix = true) →
          ∃ th', g'.threads[y.lane]? = some th' ∧ (∀ w ∈ th'.pend, w.id = y.arr.pend → w.matrix = false) ∧
            th'.fflags = th.fflags ||| r.flags ∧ th'.pc = th.pc ∧
            ∀ w, th.pend = [w] → w.preds = [] → w.landed = false → (∀ e ∈ w.regs, e.2.isSome = true) → (w.regs.map (·.1)).Nodup →
              if w.inRun = true ∧ 0 < w.win then th'.regs = th.regs ∧ th'.pend = [{ w with matrix := false, hold := false, landed := true }]
              else th'.pend = [] ∧ (∀ e ∈ w.regs, some (th'.reg e.1) = e.2) ∧ ∀ x, x ∉ w.regs.map (·.1) → th'.reg x = th.reg x)

end

namespace Sys2Proof.Machine


/-! ### The steps of a core (R9, R11, R67 to R71, R171 to R186, R202, R205) -/

/-- A thread that becomes runnable again (R11): owed a turn from now, or still from when it was. -/
def Thread.woken (th : Thread) (turns : Nat) : Thread :=
  { th with status := .run, met := none, owed := true, stamp := if th.owed then th.stamp else turns }

/-- Whether the case holds that a thread waits for, with the predicate's value (R176, R180, R185): a phase that has completed, a closed barrier, a
counter at its limit, a convergence phase that has completed. -/
def caseHolds (s : State) (core tr : Nat) (m : Team) (g : Group) (w : Wait) : Option Byte :=
  match w with
  | .barrier clu bar x _ =>
    let home := if clu then m.ids.peers.headD (core, tr) else (core, tr)
    match (s.team home.1 home.2).bind (fun k => k.bars[bar]?) with
    | none => none
    | some b =>
      let d := (b.c + 2 ^ 32 - x % 2 ^ 32) % 2 ^ 32
      if 1 ≤ d ∧ d ≤ 2 ^ 31 then some (if (if d ≤ 32 then b.errh.testBit (d - 1) else b.errs) then 0x00 else 0xFF)
      else if b.closed then some 0x00 else none
  | .counter k n => if g.counters.getD k 0 ≤ n then some 0 else none
  | .cvwait cv q => match m.cvs.find cv with
    | some v => if q < phasesDone m cv v then some 0 else none
    | none => none
  | _ => none

/-- What a wait's end makes of a thread (R11, R176, R180, R185): the case that it waits for holds, or has held since it blocked. -/
def wakes (s : State) (core tr : Nat) (m : Team) (g : Group) (th : Thread) : Thread :=
  match th.status with
  | .wait w =>
    match (if th.met = none then caseHolds s core tr m g w else th.met) with
    | none => th
    | some v => (match w with
      | .barrier _ _ _ p => th.setPred p v
      | _ => th).woken g.turns
  | _ => th

/-- Arrivals at cluster scope, one for each of n lanes, with the phase each counts toward (R175, R178). -/
def cluArrivals : Nat → Barrier → Barrier × List Nat
  | 0, b => (b, [])
  | n + 1, b =>
    let b1 := b.event (fun b => b)
    let r := cluArrivals n (b1.event (·.arrive true))
    (r.1, b1.arrivalPhase :: r.2)

/-- What a bank or port does with the accesses of one request, lane by lane (R49, R161, R167): the memory after them, and the registers' values. -/
def bankRun : Memory → List (Nat × Nat × NearOp) → Memory × List (Nat × Nat × Word)
  | mem, [] => (mem, [])
  | mem, (l, p, .load n sx r) :: rest => ((bankRun mem rest).1, (l, r, extended n sx (mem.readLE p n)) :: (bankRun mem rest).2)
  | mem, (_, p, .store n v) :: rest => bankRun (mem.writeLE p v n) rest
  | mem, (l, p, .atom op ty b d reg) :: rest =>
    let n := atomBytes ty
    let old := mem.readLE p n
    let r := bankRun (mem.writeLE p (combine op ty old (b % 256 ^ n) (d % 256 ^ n)) n) rest
    (r.1, match reg with
      | some x => (l, x, BitVec.ofNat 64 old) :: r.2
      | none => r.2)

/-- The values of a request have come to its lanes' pending results. -/
def ValuesCome (s s' : State) (q : NearReq) (vals : List (Nat × Nat × Word)) : Prop :=
  ∀ e ∈ vals, (∀ e2 ∈ vals, e2.1 = e.1 → e2.2.1 = e.2.1 → e2 = e) → ∀ th, s.threadAt q.core q.tr q.grp e.1 = some th →
    ∀ w ∈ th.pend, w.id = q.pend → e.2.1 ∈ w.regs.map (·.1) → ∃ th', s'.threadAt q.core q.tr q.grp e.1 = some th' ∧
      ∃ w' ∈ th'.pend, w'.id = q.pend ∧ w'.regs.map (·.1) = w.regs.map (·.1) ∧ (e.2.1, some e.2.2) ∈ w'.regs

end Sys2Proof.Machine

section
open Sys2Proof Sys2Proof.Machine

/-- ISSUE_TURN chooses an issue set by R11: if no runnable thread is owed a turn, all become owed with one stamp; the first owed thread by stamp,
PC and lane leads, and every runnable thread at its PC issues with it and is owed nothing more (R9). A slot whose turn is in progress goes on with
it, also after another slot's turn, which is set aside for it (the model's form of slots that issue side by side, log 1). LONG_LATENCY_WRITE_LANDS writes a known
result, or inside its window only marks it landed (R67, R68). -/
def Sys2Proof.Claims.TurnsAndLandings : Prop :=
  (∀ (core slot r k : Nat) (rest : List (Nat × Nat)) (m : Team) (g : Group) (s : State), s.turn = none →
    s.parkedTurn core slot = none → s.candidates core slot = (r, k) :: rest → s.team core r = some m → m.groups[k]? = some g → (∃ th ∈ g.threads, th.runnable = true) →
    let none_ := ∀ th ∈ g.threads, th.runnable = true → th.owed = false
    let marked := fun (x : Thread) (y : Thread) => (x.runnable = true ∧ none_ → y = { x with owed := true, stamp := g.turns + 1 }) ∧
      (¬ (x.runnable = true ∧ none_) → y = x)
    ∃ s' t g', exec (.issueTurn core slot) s = .next s' ∧ s'.turn = some t ∧ t.core = core ∧ t.tr = r ∧ t.grp = k ∧ SameMemory s s' ∧
      (∀ c, c ≠ core → s'.core c = s.core c) ∧ (s'.team core r).bind (fun m => m.groups[k]?) = some g' ∧ g'.turns = g.turns + 1 ∧
      g'.threads.length = g.threads.length ∧
      ∃ (l0 : Nat) (x0 y0 : Thread), g.threads[l0]? = some x0 ∧ x0.runnable = true ∧ marked x0 y0 ∧ y0.owed = true ∧
        (∀ (l : Nat) (x y : Thread), g.threads[l]? = some x → x.runnable = true → marked x y → y.owed = true →
          y0.stamp < y.stamp ∨ (y0.stamp = y.stamp ∧ (x0.pc.toNat < x.pc.toNat ∨ (x0.pc = x.pc ∧ l0 ≤ l)))) ∧
        t.lanes = (List.range g.threads.length).filter (fun l => match g.threads[l]? with
          | some x => x.runnable && x.pc == x0.pc
          | none => false) ∧
        ∀ (l : Nat) (x y : Thread), g.threads[l]? = some x → marked x y →
          g'.threads[l]? = some (if l ∈ t.lanes then { y with owed := false } else y)) ∧
  (∀ (core slot : Nat) (t : Turn) (x : Nat × Nat) (s : State), s.turn = some t → s.turnSlot t = some x →
    (t.core = core ∧ x.1 = slot → exec (.issueTurn core slot) s = .next s) ∧
    (¬ (t.core = core ∧ x.1 = slot) → ∀ p ls l, s.parkedTurn core slot = some p → s.parkedLanes p = l :: ls →
      let parked := s.parked.filter (fun q => !q.isOf core slot) ++ [{ slot := x.1, task := x.2, turn := t }]
      exec (.issueTurn core slot) s = .next { s with turn := some { p.turn with lanes := l :: ls }, parked := parked })) ∧
  (∀ (core tr grp lane idx : Nat) (th : Thread) (p : Pending) (s : State), s.threadAt core tr grp lane = some th → th.pend[idx]? = some p →
    p.known = true →
    ∃ s' th', exec (.longLatencyWriteLands core tr grp lane idx) s = .next s' ∧ SameMemory s s' ∧ s'.threadAt core tr grp lane = some th' ∧
      (p.inRun = true ∧ 0 < p.win → th' = { th with pend := th.pend.set idx { p with landed := true } }) ∧
      (p.inRun = false ∨ p.win = 0 → th'.pend = th.pend.eraseIdx idx ∧ th'.pc = th.pc ∧ th'.status = th.status ∧
        (∀ r, r ∉ p.regs.map (·.1) → th'.reg r = th.reg r) ∧ (∀ r, r ∉ p.preds.map (·.1) → th'.pred r = th.pred r) ∧
        ((p.regs.map (·.1)).Nodup → ∀ (r : Nat) (v : Word), (r, some v) ∈ p.regs → th'.reg r = v) ∧
        ((p.preds.map (·.1)).Nodup → ∀ (r : Nat) (v : Byte), (r, some v) ∈ p.preds → r ≠ 0 → th'.pred r = v)))

/-- The steps that end waits. BARRIER_WAITER_WAKE: each thread of a group whose wait has ended runs on with its predicate (R11, R176, R180, R185).
CBAR_ARRIVAL: the oldest arrivals on their way are counted at cluster scope and give their lanes the phase (R178). COURSE_COMPLETION: once every
team of the grid, of whichever task, has arrived or ended with its commands complete, and what the course drains can drain, the waiting threads run
on, with predicate 0x00 if a team has stopped since the last course (R179). RING_CLOSED: a closing ring without open commands
is closed with its full barriers (R183). LOCK_GRANT: the head's grant arrives on its barrier, and one to a team that has ended is dropped
(R186, R187). -/
def Obligations.WaitEnds : Prop :=
  (∀ (core tr grp : Nat) (m : Team) (g : Group) (s : State), s.team core tr = some m → m.groups[grp]? = some g →
    ∃ s', exec (.barrierWaiterWake core tr grp) s = .next s' ∧ SameMemory s s' ∧
      ∀ (l : Nat) (th : Thread), g.threads[l]? = some th → s'.threadAt core tr grp l = some (wakes s core tr m g th)) ∧
  (∀ (core tr : Nat) (q : CbarArrival) (m : Team) (b : Barrier) (s : State), (s.core core).cbars.find? (fun q => q.toRec == tr) = some q →
    s.team core tr = some m → m.bars[q.bar]? = some b → q.lanes.Nodup →
    let r := cluArrivals (if q.one then min 1 q.lanes.length else q.lanes.length) b
    ∃ s' m', exec (.cbarArrival core tr) s = .next s' ∧ (s'.core core).cbars = (s.core core).cbars.erase q ∧ s'.team core tr = some m' ∧
      m'.bars = m.bars.set q.bar r.1 ∧
      ∀ (k l : Nat) (th : Thread) (w : Pending) (d : Nat), q.lanes[k]? = some l → s.threadAt q.fromCore q.fromRec q.grp l = some th →
        w ∈ th.pend → w.id = q.pend → w.regs = [(d, none)] → ∃ th', s'.threadAt q.fromCore q.fromRec q.grp l = some th' ∧
          { w with regs := [(d, some (BitVec.ofNat 64 (r.2.getD (if q.one then 0 else k) 0)))] } ∈ th'.pend ∧ { th' with pend := th.pend } = th) ∧
  (∀ (grid : Nat) (l : Launch) (s : State), s.sched.launches.find grid = some l →
    let xs := (s.sched.tasks.filter (fun e => e.2.grid == grid && (match e.2.state with
      | .discarding _ => false
      | _ => true))).flatMap (fun e => e.2.teams)
    let stopped := l.lastCourse < l.lastStop ∨ ∃ p ∈ xs, ∃ m, s.team p.1 p.2 = some m ∧
      ∃ cause pc addr at_, m.state = .stopped cause pc addr at_ ∧ cause ≠ 0 ∧ l.lastCourse < at_
    xs.Nodup → (∃ p ∈ xs, ∃ m, s.team p.1 p.2 = some m ∧ m.state = .running) →
    (∀ p ∈ xs, ∃ m, s.team p.1 p.2 = some m ∧ s.teamBusy p.1 p.2 m = false ∧
      (m.state ≠ .running ∨ ∀ g ∈ m.groups, ∀ th ∈ g.threads, th.status = .exited ∨ ∃ d, th.status = .wait (.course d))) →
    s.courseReady l.ctx (fun k => k.launch == grid && (k.scope == 3 || k.scope == 4)) = true →
    ∃ s' v, exec (.courseCompletion grid) s = .next s' ∧ (stopped → v = 0x00) ∧ (¬ stopped → v = 0xFF) ∧
      ∀ p ∈ xs, ∀ m, s.team p.1 p.2 = some m → ∃ m', s'.team p.1 p.2 = some m' ∧ m'.courses = m.courses + 1 ∧
        ∀ (k j : Nat) (g : Group) (th : Thread), m.groups[k]? = some g → g.threads[j]? = some th →
          s'.threadAt p.1 p.2 k j = some (match th.status with
            | .wait (.course d) => (th.setPred d v).woken g.turns
            | _ => th)) ∧
  (∀ (core tr ring : Nat) (m : Team) (q : Ring) (s : State), s.team core tr = some m → m.rings.find ring = some q → q.st = .closing →
    (∀ f ∈ (s.core core).hod.flight, f.done = true ∨ f.queue ≠ 0 ∨ f.tr ≠ tr ∨ f.bar < q.bF ∨ q.bF + 2 * q.n ≤ f.bar ∨
      match q.awaits with
      | some seqs => f.seq ∉ seqs
      | none => ∀ g, m.groups[f.grp]? = some g → g.role ≠ q.role) →
    exec (.ringClosed core tr ring) s = .next (s.setTeam core tr { m with
      rings := m.rings.insert ring { q with st := .closed },
      bars := m.bars.mapIdx (fun k b => if q.bF ≤ k ∧ k < q.bF + 2 * q.n ∧ (k - q.bF) % 2 = 0 then { b with closed := true } else b) })) ∧
  (∀ (die word : Nat) (q : LockReq) (r : List LockReq) (s : State), (s.die die).locks.find word = some (q :: r) → q.granted = false →
    (∀ (m : Team) (b : Barrier), s.team q.who.core q.who.tr = some m → m.state = .running → m.bars[q.bar]? = some b → b.own →
      ∃ s', exec (.lockGrant die word) s = .next s' ∧ SameMemory s s' ∧ s'.die die = { s.die die with
          locks := (s.die die).locks.insert word ({ q with granted := true } :: r) } ∧
        s'.team q.who.core q.who.tr = some { m with bars := m.bars.set q.bar (b.event (·.arrive false)) }) ∧
    ((∀ m, s.team q.who.core q.who.tr = some m → m.state ≠ .running) →
      exec (.lockGrant die word) s = .next (s.setDie die { s.die die with
        locks := if r = [] then (s.die die).locks.erase word else (s.die die).locks.insert word r })))

/-- One cycle of a tile-store bank (R205) or of a scratchpad's port (R161, R202) performs a waiting request: its lanes' accesses in ascending order,
each with its value for the lane, and no byte of another memory. -/
def Sys2Proof.Claims.BankSteps : Prop :=
  (∀ (die : Nat) (q : NearReq) (s : State), (s.die die).tileReqs = [q] → q.tile = true → q.unit = die → s.hours.poison = [] →
    let r := bankRun (s.die die).tile q.lanes
    ∃ s', exec (.tileBankAccess die q.bank) s = .next s' ∧ (s'.die die).tile = r.1 ∧ (s'.die die).tileReqs = [] ∧ s'.far = s.far ∧
      (∀ c, (s'.core c).scratch = (s.core c).scratch ∧ (s'.core c).const = (s.core c).const) ∧
      (∀ d, d ≠ die → (s'.die d).tile = (s.die d).tile) ∧ ValuesCome s s' q r.2) ∧
  (∀ (core bank : Nat) (q : NearReq) (s : State), (s.core core).peerReqs.find? (fun q => q.bank == bank) = some q → q.tile = false →
    q.unit = core → s.hours.poison = [] →
    let r := bankRun (s.core core).scratch q.lanes
    ∃ s', exec (.peerPortAccess core bank) s = .next s' ∧ (s'.core core).scratch = r.1 ∧
      (s'.core core).peerReqs = (s.core core).peerReqs.filter (fun x => x != q) ∧ s'.far = s.far ∧
      (∀ c, (s'.core c).const = (s.core c).const ∧ (c ≠ core → (s'.core c).scratch = (s.core c).scratch)) ∧
      (∀ d, (s'.die d).tile = (s.die d).tile) ∧ ValuesCome s s' q r.2)

end

namespace Sys2Proof.Machine


/-! ### The hods, the L2 and the network (R217 to R246, R265, R337, R355 to R360) -/

/-- An event reaches a session that has room for it (R353). -/
def Told (s s' : State) (n type ctx : Nat) (detail : List Nat) : Prop :=
  ∀ x, s.host.sessions.find n = some x → x.events.length < 4096 → s'.host.sessions.find n = some { x with
    events := x.events ++ [{ type := type, ctx := ctx, lost := x.lost, seq := x.seq, detail := detail }], seq := (x.seq + 1) % 2 ^ 32 }

/-- No ring, launch queue or receive queue is enabled: no word of memory takes the maximum of its writes (R219, R298, R356). -/
structure NoRings (s : State) : Prop where
  rings : ∀ c ∈ s.cores, ∀ q ∈ c.2.hod.queues, q.2.en = false
  launches : ∀ q ∈ s.sched.queues, q.2.en = false
  receives : ∀ q ∈ s.host.recvQs, q.2.en = false

/-- A command of queue 0 in a slot of a hod, whose team still holds its record and whose queue holds no older command; no bank or port keeps
an access of the team waiting, and no byte of the package is poisoned. -/
structure InSlot (s : State) (core slot : Nat) (k : Cmd) (p : Packet) (m : Team) (b : Barrier) : Prop where
  cmd : s.cmd core slot = some k
  packet : p = Packet.of k.pkt
  queue : k.queue = 0
  team : s.team core k.trec = some m
  task : m.ids.task = k.task
  bar : m.bars[p.bar]? = some b
  own : b.own
  first : ∀ e ∈ (s.core core).hod.cmds, e.2.queue = 0 → k.seq ≤ e.2.seq
  poison : s.hours.poison = []
  tiles : ∀ d, (s.die d).tileReqs = []
  peers : ∀ c, (s.core c).peerReqs = []
  distinct : ((s.core core).hod.cmds.map (·.1)).Nodup

/-- A command that runs with elements left, without fence, counts, decrements or scales, on a hod that works. -/
structure RunsOn (s : State) (core slot op : Nat) (k : Cmd) (p : Packet) (m : Team) (b : Barrier) : Prop where
  slot : InSlot s core slot k p m b
  on : s.hodUp core = true
  op : p.op = op
  live : k.state ≠ .suspended
  left : k.count < p.total
  goes : k.stopped = false
  fence : p.fence = 0
  rcnt : p.rcnt = 0
  consume : p.consume = false
  scaled : p.scaled = false

/-- The same, where the next element shares no aligned 8 bytes of the destination with the one after it. -/
structure RunsPlain (s : State) (core slot op : Nat) (k : Cmd) (p : Packet) (m : Team) (b : Barrier) : Prop where
  runs : RunsOn s core slot op k p m b
  alone : p.grain k.count = 1

/-- A sector of device memory is read under a key as it is stored (R403). -/
def Keyed (s : State) (sec ck : Nat) : Prop := ∀ t, s.farKeys.find sec = some t → t.1 = ck

/-- The team's scratchpad byte range of an element, inside the allocation (R225). -/
def inScratch (m : Team) (a z : Nat) : Prop := a < 2 ^ 32 ∧ a + z ≤ m.env.scratchSize

/-- A command's barrier after the bytes of its next elements, one after another (R243). -/
def credits (p : Packet) (k : Cmd) (b : Barrier) : Nat → Barrier
  | 0 => b
  | n + 1 =>
    let x := p.bytesUpTo (k.count + n + 1) - (if n = 0 then k.bytes else p.bytesUpTo (k.count + n))
    if x = 0 then credits p k b n else (credits p k b n).event (·.bytes x)

/-- g elements performed: the command's record counts them, their bytes are credited to its barrier (R243), and the team's core's scratchpad is as
given; no other memory changes. -/
structure PerformsAll (s s' : State) (core slot g : Nat) (k k' : Cmd) (p : Packet) (b : Barrier) (scratch : Memory) : Prop where
  cmd : s'.cmd core slot = some { k' with count := k.count + g, bytes := p.bytesUpTo (k.count + g), state := .running }
  bar : s'.bar core k.trec p.bar = some (credits p k b g)
  scratch : (s'.core core).scratch = scratch
  cores : ∀ c, c ≠ core → s'.core c = s.core c
  const : (s'.core core).const = (s.core core).const
  tile : ∀ d, (s'.die d).tile = (s.die d).tile
  far : s'.far = s.far

/-- One element performed. -/
abbrev Performs (s s' : State) (core slot : Nat) (k k' : Cmd) (p : Packet) (b : Barrier) (scratch : Memory) : Prop :=
  PerformsAll s s' core slot 1 k k' p b scratch

/-- A command leaves the hod (R243, R244) as the only one that its group has open: the slots hold `cmds`, its barrier is `b'`, its class counts down,
and nothing of it stays. -/
structure Ends (s s' : State) (core : Nat) (cmds : Table Cmd) (k : Cmd) (p : Packet) (m : Team) (b' : Barrier) : Prop where
  slots : (s'.core core).hod.cmds = cmds
  flight : (s'.core core).hod.flight = []
  bar : s'.bar core k.trec p.bar = some b'
  memory : SameMemory s s'
  counter : ∀ (g : Group) (n : Nat), m.groups[k.grp]? = some g → g.counters[p.cls]? = some n →
    (p.cls = 3 → g.posted = [(commandPost k.seq, false)]) → ∃ m' g', s'.team core k.trec = some m' ∧ m'.groups[k.grp]? = some g' ∧ g'.counters = g.counters.set p.cls (n - 1)

/-- The command's place in the completion order, alone (R243); its context has no region entry that waits for it. -/
def AloneInFlight (s : State) (core : Nat) (k : Cmd) (p : Packet) : Prop :=
  (s.core core).hod.flight = [{ queue := 0, ring := 0, ctx := k.ctx, seq := k.seq, tr := k.trec, grp := k.grp, task := k.task, cls := p.cls,
                                bar := p.bar, done := false }] ∧ (s.ctx k.ctx).regions = []

end Sys2Proof.Machine

section
open Sys2Proof Sys2Proof.Machine

/-- The hod's queues. HOD_ACCEPT_PACKET takes the oldest packet of queue 0 into the lowest free slot (R217, R218, R246); a packet that fails a
check of R224 is abandoned with an error completion, and one with a zero extent completes at once. RING_SLOT_READ reads a ring's slot READ, ready once
its LAP is the expected one (R219, R220); a ring that cannot be read is disabled and the host told. INBOX_COMMAND fills a gang's inbox (R320).
COMMAND_COMPLETION delivers a finished command's arrival and counts it down (R243). -/
def Obligations.HodQueues : Prop :=
  (∀ (core : Nat) (x : Q0Packet) (r : List Q0Packet) (s0 : State),
    let s := s0.flushFlights core
    let h := (s.core core).hod
    let p := Packet.of x.pkt
    h.cmds.length + h.inboxRun.length < 128 → h.inbox = [] → (s.hours.power = .p0 ∨ s.hours.power = .p1) → s.hodUp core = true → h.q0 = x :: r →
    (h.rr = 7 ∨ ∀ q, h.ready.find q = none) →
    let k := Cmd.accepted x.pkt 0 x.grp x.tr true x.ctx x.task x.seq
    (∀ slot, p.ok true = true → p.count ≠ 0 → slot < 128 → h.cmds.find slot = none → (∀ n, n < slot → h.cmds.find n ≠ none) →
      let k' := { k with state := if h.mayRun k p then .running else .waiting }
      exec (.hodAcceptPacket core) s0 =
        .next (s.setCore core { s.core core with hod := { h with rr := 0, q0 := r, cmds := h.cmds.insert slot k' } })) ∧
    (∀ (m : Team) (b : Barrier), s.team core x.tr = some m → m.ids.task = x.task → m.bars[p.bar]? = some b → b.own → AloneInFlight s core k p →
      (p.ok true = false → ∃ s', exec (.hodAcceptPacket core) s0 = .next s' ∧ (s'.core core).hod.q0 = r ∧
        Ends s s' core h.cmds k p m b.errorComplete.1) ∧
      (p.ok true = true → p.count = 0 → ∃ s', exec (.hodAcceptPacket core) s0 = .next s' ∧ (s'.core core).hod.q0 = r ∧
        Ends s s' core h.cmds k p m (if p.arrive then b.event (·.arrive false) else b)))) ∧
  (∀ (core q rd tail va : Nat) (pkt : BitVec 512) (s0 : State),
    let s := s0.flushFlights core
    let h := (s.core core).hod
    let e := h.entry q
    q ≠ 0 → e.en = true → h.ready.find q = none → (s.hours.power = .p0 ∨ s.hours.power = .p1) → s.hodUp core = true →
    s.ringRead e.ctx (e.base + 8) 8 = .ok s rd → s.ringRead e.ctx (e.base + 24) 8 = .ok s tail → va = e.base + 64 + 64 * (rd % 2 ^ e.logn) →
    (tail ≤ rd → exec (.ringSlotRead core q) s0 = .next s) ∧
    (rd < tail →
      (s.ringRead e.ctx va 64 = .ok s pkt.toNat → (pkt.extractLsb' 56 8).toNat = rd / 2 ^ e.logn % 255 + 1 →
        exec (.ringSlotRead core q) s0 = .next (s.wakeUp.setCore core { s.core core with hod := { h with ready := h.ready.insert q pkt } })) ∧
      (s.ringRead e.ctx va 64 = .ok s pkt.toNat → (pkt.extractLsb' 56 8).toNat ≠ rd / 2 ^ e.logn % 255 + 1 →
        exec (.ringSlotRead core q) s0 = .next s) ∧
      (∀ kind a sp, s.ringRead e.ctx va 64 = .stop kind a sp → ∃ s', exec (.ringSlotRead core q) s0 = .next s' ∧
        (s'.core core).hod = { h with queues := h.queues.insert q { e with en := false } , ready := h.ready.erase q } ∧ SameMemory s s' ∧
        ∀ n, e.ctx ≠ 0 → s.ownerSession e.ctx = some n → Told s s' n 6 e.ctx [core, q]))) ∧
  (∀ (core task p : Nat) (rest : List Nat) (x : Task) (s0 : State),
    let s := s0.takeInbox core
    let b := s.blockOf x.grid
    let die := core / 48
    let size := 64 + 64 * x.gang.records.length
    s0.hodUp core = true → (s0.core core).hod.inbox = task :: rest → (s0.core core).hod.inboxRun = [] → (s0.core core).hod.cmds.length < 128 →
    s.sched.tasks.find task = some x → p = (s.grant x.ctx die).1 + b.inbox + x.slot * b.inboxSize → s.tileOpen x.ctx die p size = true →
    (s.die die).tileReqs = [] → (s.die die).counts = [] → (∀ r ∈ x.gang.records, r.spilled = none ∧
      s.acquireReady x.ctx die (s.affinityKey x.ctx (recAffinity r.data)) 4 = true) →
    ∃ s' x', exec (.inboxCommand core) s0 = .next s' ∧ (s'.core core).hod.inbox = rest ∧ (s'.core core).hod.inboxRun = [] ∧
      s'.sched.tasks.find task = some x' ∧ x'.inboxDone = true ∧
      (s'.die die).tile = (s.die die).tile.writeLE p (inboxBits b x.gang.slice (x.gang.records.map (fun (r : ContRec) => r.data.toNat))) size) ∧
  (∀ (core slot : Nat) (k : Cmd) (p : Packet) (m : Team) (b : Barrier) (s : State), InSlot s core slot k p m b → k.state ≠ .suspended →
    (k.stopped = true ∨ p.total ≤ k.count) → (p.fence = 0 ∨ p.fence = 2) → AloneInFlight s core k p →
    ∃ s', exec (.commandCompletion core slot) s = .next s' ∧
      Ends s s' core ((s.core core).hod.cmds.erase slot) k p m (if p.arrive then b.event (·.arrive false) else b))

/-- One element of each operation of the copy command, where its operands are in the team's scratchpad and, for an index list or a table, in
device memory that the hod reads at once: COPY, GATHER, SCATTER, SCATRED, FILL, PREFETCH and ATOMIC perform element n of R227 with the value of
R228, R231, R233, R236 and R238, where a COPY that has overwritten bytes it reads takes them as they stand or as they stood before it (R229). The
elements of a COPY or FILL that share an aligned 8 bytes of the destination are performed together (R159, R364). GWBIND and GWFREE bind and free a
window (R235); FENCE as an order point only counts itself done (R239, R241). -/
def Obligations.CommandOperations : Prop :=
  ∀ (core slot : Nat) (k : Cmd) (p : Packet) (m : Team) (b : Barrier) (s : State),
    let mem := (s.core core).scratch
    let base := m.env.scratchBase
    let z := typeHalves p.dstType / 2
    let a := (p.srcAddr k.count).1
    let d := (p.dstAddr k.count).1
    let readAt := fun (v n x : Nat) => farRead s core k.ctx v n = .ok s x
    let runs := fun (op : Nat) => RunsPlain s core slot op k p m b ∧ p.typesPair = true ∧ p.srcType = p.dstType ∧ p.dstType ≠ 7
    let indexed := fun (x : Nat) => readAt (p.ilist + k.count * typeBytes p.itype) (typeBytes p.itype) x
    let x := mem.readLE (base + a) z
    (runs 1 → p.srcSpace = 1 → p.dstSpace = 1 → p.redop = 0 → inScratch m a z → inScratch m d z →
      ∃ s' v, exec (.copy core slot 1) s = .next s' ∧ Performs s s' core slot k (k.save s core p d z) p b (mem.writeLE (base + d) v z) ∧
        (v = x ∨ k.saved ≠ [] ∧ v = k.before 1 a x z)) ∧
    (∀ x e v, runs 2 → k.saved = [] → p.dstSpace = 1 → p.redop = 0 → indexed x → classify p.itype p.bound p.sentinel x = .entry e →
      readAt (p.src + e * z) z v → inScratch m d z →
      ∃ s', exec (.gather core slot 1) s = .next s' ∧ Performs s s' core slot k (k.save s core p d z) p b (mem.writeLE (base + d) v z)) ∧
    (∀ x e, runs 3 → k.saved = [] → p.srcSpace = 1 → p.dstSpace = 1 → p.redop = 0 → indexed x → classify p.itype p.bound p.sentinel x = .entry e →
      inScratch m a z → inScratch m (p.dst + e * z) z →
      ∃ s', exec (.scatter core slot 1) s = .next s' ∧
        Performs s s' core slot k (k.save s core p (p.dst + e * z) z) p b (mem.writeLE (base + (p.dst + e * z)) (mem.readLE (base + a) z) z)) ∧
    (∀ x e, runs 4 → k.saved = [] → p.srcSpace = 1 → p.dstSpace = 1 → p.redop ≠ 0 → indexed x → classify p.itype p.bound p.sentinel x = .entry e →
      inScratch m a z → inScratch m (p.dst + e * z) z →
      ∃ s', exec (.scatred core slot 1) s = .next s' ∧ Performs s s' core slot k (k.save s core p (p.dst + e * z) z) p b (mem.writeLE (base + (p.dst + e * z))
        (combineElem p.redop p.dstType (mem.readLE (base + (p.dst + e * z)) z) (mem.readLE (base + a) z) 0) z)) ∧
    (RunsPlain s core slot 5 k p m b → p.dstSpace = 1 → p.redop = 0 → p.dstType ≠ 7 → inScratch m d z →
      ∃ s', exec (.fill core slot 1) s = .next s' ∧ Performs s s' core slot k (k.save s core p d z) p b (mem.writeLE (base + d)
        (if p.dstType = 1 then p.src * 65536 else if p.dstType = 8 then ((BitVec.ofNat 48 p.src).signExtend 64).toNat
          else p.src % 2 ^ (8 * z)) z)) ∧
    (RunsOn s core slot 1 k p m b → p.srcType = p.dstType → p.dstType ≠ 7 → k.saved = [] → p.srcSpace = 1 → p.dstSpace = 1 → p.redop = 0 →
      (∀ i, i < p.grain k.count → inScratch m (p.srcAddr (k.count + i)).1 z ∧ inScratch m (p.dstAddr (k.count + i)).1 z ∧
        p.mayRead (p.dstAddr (k.count + i)).1 z = false) →
      ∃ s', exec (.copy core slot 1) s = .next s' ∧ PerformsAll s s' core slot (p.grain k.count) k k p b
        ((List.range (p.grain k.count)).foldl (fun (x : Memory) i => x.writeLE (base + (p.dstAddr (k.count + i)).1)
          (x.readLE (base + (p.srcAddr (k.count + i)).1) z) z) mem)) ∧
    (RunsOn s core slot 5 k p m b → p.srcSpace = 6 → p.dstSpace = 1 → p.redop = 0 → p.dstType ≠ 7 →
      (∀ i, i < p.grain k.count → inScratch m (p.dstAddr (k.count + i)).1 z) →
      ∃ s', exec (.fill core slot 1) s = .next s' ∧ PerformsAll s s' core slot (p.grain k.count) k k p b
        ((List.range (p.grain k.count)).foldl (fun (x : Memory) i => x.writeLE (base + (p.dstAddr (k.count + i)).1)
          (if p.dstType = 1 then p.src * 65536 else if p.dstType = 8 then ((BitVec.ofNat 48 p.src).signExtend 64).toNat
            else p.src % 2 ^ (8 * z)) z) mem)) ∧
    (∀ v, RunsPlain s core slot 8 k p m b → p.srcType = 0 → readAt a 1 v →
      ∃ s', exec (.prefetch core slot 1) s = .next s' ∧ Performs s s' core slot k k p b mem) ∧
    (RunsPlain s core slot 9 k p m b → p.srcSpace = 6 → p.dstSpace = 1 → inScratch m p.dst (atomicBytes p.dstType) →
      let n := atomicBytes p.dstType
      ∃ s', exec (.atomic core slot) s = .next s' ∧ Performs s s' core slot k k p b (mem.writeLE (base + p.dst)
        (combine p.redop p.dstType (mem.readLE (base + p.dst) n) ((p.word 4 + p.word 5 * 2 ^ 32) % 256 ^ n)
          ((p.word 6 + p.word 7 * 2 ^ 32) % 256 ^ n)) n)) ∧
    (RunsPlain s core slot 6 k p m b → k.count = 0 → (∀ x, (s.die (core / 48)).windows.find (p.dst / 2 ^ 42) = some x → x.ctx = k.ctx) →
      ∃ s', exec (.gwbind core slot) s = .next s' ∧ Performs s s' core slot k k p b mem ∧
        (s'.die (core / 48)).windows = (s.die (core / 48)).windows.insert (p.dst / 2 ^ 42)
          { ctx := k.ctx, ilist := p.ilist, itype := p.itype, bound := p.bound, sentinel := p.sentinel,
            fill := p.fillValue % 2 ^ (4 * typeHalves p.srcType), table := p.src, etype := p.srcType, len := p.extent 0 } ∧
        (s'.die (core / 48)).oor.find (p.dst / 2 ^ 42) = none) ∧
    (∀ x, RunsPlain s core slot 7 k p m b → k.count = 0 → (s.die (core / 48)).windows.find (p.dst / 2 ^ 42) = some x → x.ctx = k.ctx →
      s.windowRead (core / 48) (p.dst / 2 ^ 42) = false →
      ∃ s', exec (.gwfree core slot) s = .next s' ∧ Performs s s' core slot k k p b mem ∧
        (s'.die (core / 48)).windows.find (p.dst / 2 ^ 42) = none) ∧
    (RunsPlain s core slot 10 k p m b → k.count = 0 →
      ∃ s', exec (.fenceCommand core slot) s = .next s' ∧ Performs s s' core slot k k p b mem)

/-- What happens to a command in its slot. HOLD_TIME_EXPIRY and COMMAND_ABANDON abandon a held command with an error completion, COMMAND_RESUME
lets it run from element n (R244, R245). NETWORK_ACKNOWLEDGEMENT credits the message's next packet, SEND_RETRY_TIMEOUT holds the command as
unreachable once its queue's RETRY has passed, and REMOTE_READ_REFUSAL holds it with a permission fault (R240, R355, R359). -/
def Obligations.HeldCommands : Prop :=
  ∀ (core slot : Nat) (k : Cmd) (p : Packet) (m : Team) (b : Barrier) (s : State), InSlot s core slot k p m b →
    let held := k.state = .suspended ∧ k.kind ∈ [2, 3, 4, 7]
    (held → AloneInFlight s core k p →
      let cmds := (s.core core).hod.cmds.erase slot
      (∃ s', exec (.commandAbandon core slot) s = .next s' ∧ Ends s s' core cmds k p m b.errorComplete.1) ∧
      (k.deadline ≤ s.ns → ∃ s', exec (.holdTimeExpiry core slot) s = .next s' ∧ Ends s s' core cmds k p m b.errorComplete.1)) ∧
    (held → exec (.commandResume core slot) s = .next (s.setCmd core slot { k with state := .running, kind := 0, faddr := 0, fspace := 0 })) ∧
    (∀ x, k.message = some x → k.state ≠ .suspended →
      let done := min (x + 4096) (p.total * typeHalves p.srcType / 2)
      let n := done * 2 / typeHalves p.srcType
      ∃ s', exec (.networkAcknowledgement core slot) s = .next s' ∧ SameMemory s s' ∧
        s'.cmd core slot = some { k with count := n, bytes := p.bytesUpTo n, state := .running, message := some done, sent := s.ns } ∧
        s'.bar core k.trec p.bar = some (if p.bytesUpTo n - k.bytes = 0 then b else b.event (·.bytes (p.bytesUpTo n - k.bytes)))) ∧
    (∀ x, k.message = some x → k.state ≠ .suspended → k.count < p.total → k.stopped = false → p.op ≠ 8 →
      let q := Table.get SendQ.reset s.host.sendQs (p.dst / 2 ^ 4 % 256)
      (s.ns < k.sent + q.retry * 1000 → exec (.sendRetryTimeout core slot) s = .next s) ∧
      (k.sent + q.retry * 1000 ≤ s.ns → ∃ s', exec (.sendRetryTimeout core slot) s = .next s' ∧ SameMemory s s' ∧ s'.cmd core slot = some { k with
        state := .suspended, kind := 7, faddr := p.dst % 2 ^ 48, fspace := 4, deadline := s.ns + s.sched.hold * 1000, message := none } ∧
        ∀ n, k.ctx ≠ 0 → s.ownerSession k.ctx = some n → Told s s' n 3 k.ctx [core, slot, 7, p.dst % 2 ^ 48])) ∧
    (k.state ≠ .suspended → k.count < p.total → k.stopped = false → p.srcSpace = 0 → p.op ≠ 8 →
      let a := (p.srcAddr k.count).1
      ∃ s', exec (.remoteReadRefusal core slot) s = .next s' ∧ SameMemory s s' ∧ s'.cmd core slot = some { k with
        state := .suspended, kind := 2, faddr := a % 2 ^ 48, fspace := 0, deadline := s.ns + s.sched.hold * 1000 } ∧
        ∀ n, k.ctx ≠ 0 → s.ownerSession k.ctx = some n → Told s s' n 3 k.ctx [core, slot, 2, a % 2 ^ 48])

/-- Device memory's own steps. SECTOR_FILL_COMPLETE makes a pending sector a copy of its home, or drops it where the die keeps no copy (R213, R265,
R340); L2_EVICTION writes a dirty sector's dirty bytes home and drops it (R265); PAGE_FAULT_RESOLUTION takes up the oldest page fault, and then maps its
page to zeroed memory of the pool, or raises event 9 (R337); NETWORK_PACKET_RECEIVE lands or refuses a packet, and writes the header after the last one
(R356); PEER_REMOTE_REQUEST is performed, refused or waits (R359); REMOTE_WRITE_REFUSAL tells the owner (R360). -/
def Obligations.MemorySteps : Prop :=
  (∀ (die sec : Nat) (x : Sector) (s : State), (s.die die).l2.find sec = some x → x.st = .pending → s.homeUp (64 * sec) = true →
    s.hours.poison = [] → sec / 2 ^ 46 ≠ 2 →
    ((s.ctx x.ctx).effectiveOn die x.va = .shared → s.homeDie (64 * sec) ≠ die → Keyed s sec (s.cryptOf x.ctx x.va) →
      ∃ s' x', exec (.sectorFillComplete die sec) s = .next s' ∧ (s'.die die).l2.find sec = some x' ∧ x'.dirty = x.dirty ∧
        x'.st = (if x.dirty = 0 then .clean else .dirty) ∧
        (∀ i, i < 64 → x'.valid.getLsbD i = true ∧ x'.byte i = if x.valid.getLsbD i then x.byte i else s.far.read (64 * sec + i)) ∧ SameMemory s s') ∧
    ((s.homeDie (64 * sec) = die ∨ (s.ctx x.ctx).effectiveOn die x.va = .thawing) → x.dirty = 0 →
      ∃ s', exec (.sectorFillComplete die sec) s = .next s' ∧ (s'.die die).l2.find sec = none ∧ SameMemory s s')) ∧
  (∀ (die sec : Nat) (x : Sector) (s : State), (s.die die).l2.find sec = some x → x.st ≠ .pending → (s.die die).l2counts.find (sec / 4) = none →
    (x.st = .clean ∨ s.homeUp (64 * sec) = true) → sec / 2 ^ 46 ≠ 2 → Keyed s sec (s.cryptOf x.ctx x.va) → NoRings s →
    ∃ s', exec (.l2Eviction die sec) s = .next s' ∧ (s'.die die).l2.find sec = none ∧ (∀ k, k ≠ sec → (s'.die die).l2.find k = (s.die die).l2.find k) ∧
      ∀ a, s'.far.read a = if x.st = .dirty ∧ a / 64 = sec ∧ x.dirty.getLsbD (a % 64) = true then x.byte (a % 64) else s.far.read a) ∧
  (∀ (ctx va : Nat) (f : PageFault) (s : State), s.sched.faults.find? (fun (x : PageFault) => x.covers ctx va) = some f → s.sched.stopped = false →
    s.hours.power ≠ .p3 →
    (∀ base size, f.begun = none → s.sched.faults.find? (fun (x : PageFault) => x.begun.isNone) = some f →
      (s.sched.faults.filter (fun (x : PageFault) => x.begun.isSome)).length < 8 → s.changing f.ctx f.va = none →
      s.walk f.ctx f.va = .fault base size → (s.entryAt f.ctx f.va).2.1.testBit 0 = false →
      ∃ s', exec (.pageFaultResolution ctx va) s = .next s' ∧ SameMemory s s' ∧
        s'.sched.faults = s.sched.faults.map (fun (x : PageFault) =>
          if x = f then { f with base := base, size := size, begun := some ((s.entryAt f.ctx f.va).1, (s.entryAt f.ctx f.va).2.1) } else x) ∧
        ∀ c, ∀ l ∈ (s'.core c).tlb ++ (s'.die (c / 48)).tlb, ¬ (l.ctx = f.ctx ∧ l.base < base + size ∧ base < l.base + l.size)) ∧
    (∀ at_ old, f.begun = some (at_, old) → old.testBit 0 = false → (∀ d, d < 4 → (s.die d).state = .online) →
      s.pageWaiters f.ctx f.base (f.base + f.size) = [] →
      (∀ pa, (s.ctx f.ctx).poolFind f.size = some pa → f.size % 2 ^ 16 = 0 → s.plainWord (s.ctx f.ctx).keyNo at_ = old → at_ % 8 = 0 → at_ / 2 ^ 52 ≠ 2 →
        Keyed s (at_ / 64) (s.ctx f.ctx).keyNo → (at_ < pa ∨ pa + f.size ≤ at_) → NoRings s →
        ∃ s', exec (.pageFaultResolution ctx va) s = .next s' ∧ (s'.ctx f.ctx).poolUsed = (s.ctx f.ctx).poolUsed ++ [(pa / 65536, f.size / 65536)] ∧
          s'.sched.faults = s.sched.faults.filter (fun (x : PageFault) => !(x.ctx == f.ctx && x.base == f.base)) ∧
          s'.far.readLE at_ 8 = (pa + 31) % 2 ^ 64 ∧
          ∀ a, (a < at_ ∨ at_ + 8 ≤ a) → s'.far.read a = if pa ≤ a ∧ a < pa + f.size then 0 else s.far.read a) ∧
      ((s.ctx f.ctx).poolFind f.size = none → f.ctx ≠ 0 → ∃ s', exec (.pageFaultResolution ctx va) s = .next s' ∧ SameMemory s s' ∧
        s'.sched.faults = s.sched.faults.filter (fun (x : PageFault) => !(x.ctx == f.ctx && x.base == f.base)) ∧
        ∀ n, s.ownerSession f.ctx = some n → Told s s' n 9 f.ctx [f.va]))) ∧
  (∀ (q src job sq mid off total : Nat) (payload : Bytes) (s : State),
    let e := s.recvQ q
    let i : Instr := .networkPacketReceive q src job sq mid off total payload
    let rod := sq.testBit 8
    let old := e.msgs.find? (fun (m : InMsg) => m.src == src && m.sq == sq && m.mid == mid)
    let first := old.getD { src := src, sq := sq, mid := mid, n := e.h, landed := 0, rod := rod }
    let x := { first with landed := first.landed + payload.length }
    let at_ := e.base + x.n % 2 ^ e.logs * 2 ^ e.logz
    let bytes := payload.take (2 ^ e.logz - 64 - off)
    let h := if old = none then e.h + 1 else e.h
    let rest := e.msgs.filter (fun (m : InMsg) => !(m.src == src && m.sq == sq && m.mid == mid))
    (e.en = false ∨ e.job ≠ job ∨ s.live e.ctx = false ∨ 4096 < payload.length ∨ e.inOrder rod src sq off old = false →
      exec i s = .next (s.emit (.packetRefused q src mid off))) ∧
    (e.en = true → e.job = job → s.live e.ctx = true → payload.length ≤ 4096 → e.inOrder rod src sq off old = true →
      (old = none → s.slotFree e e.h = false → exec i s = .next (s.emit (.packetRefused q src mid off))) ∧
      (old ≠ none ∨ s.slotFree e e.h = true →
        (∀ s1 v, x.landed < total → landBytes s e.ctx src (at_ + 64 + off) bytes = .ok s1 v → x.src = src →
          exec i s = .next ((s1.setRecvQ q { e with h := h, msgs := rest ++ [x] }).emit (.packetAck q src mid off))) ∧
        (∀ s1 s2 key v, total ≤ x.landed → e.headerWaits x = false → x.src = src → headerPlace s e.ctx src at_ = .ok s1 key →
          landBytes s1 e.ctx src (at_ + 64 + off) bytes = .ok s2 v →
          let tag := x.n / 2 ^ e.logs % 255 + 1
          let trunc := if 2 ^ e.logz - 64 < total then 1 else 0
          let header := tag + trunc * 2 ^ 8 + total % 2 ^ 32 * 2 ^ 32 + src % 2 ^ 32 * 2 ^ 64 + x.sq % 2 ^ 8 * 2 ^ 96
          exec i s = .next (((s2.homePut e.ctx at_ key header 64).setRecvQ q { e with h := h, msgs := rest }).emit (.packetAck q src mid off)))))) ∧
  (∀ (endpoint job req addr len op type operand comparand : Nat) (data : Bytes) (s : State),
    let i : Instr := .peerRemoteRequest endpoint job req addr len op type operand comparand data
    let asks := fun (c : Nat) => if req = 0 then hostRead s c addr len else if req = 1 then hostWrite s c addr (numLE data) len endpoint
      else hostAtomic s c addr len endpoint { op := op, type := type, operand := operand, comparand := comparand }
    (s.exportOf endpoint job addr len (req != 0) = none → exec i s = .next (s.emit (.refusal endpoint addr (req == 1)))) ∧
    (∀ (c v : Nat) (s1 : State), s.exportOf endpoint job addr len (req != 0) = some c →
      (asks c = .wait s1 → exec i s = .next s1) ∧
      (∀ st, asks c = .refused s1 st v → exec i s = .next (s1.emit (.refusal endpoint addr (req == 1)))) ∧
      (asks c = .ok s1 v → exec i s = .next (if req = 1 then s1
        else s1.emit (.readReply endpoint ((s1.ctx c).frozen addr) ((List.range len).map (fun j => BitVec.ofNat 8 (v / 256 ^ j)))))))) ∧
  (∀ (ctx peer addr n : Nat) (s : State), ctx ≠ 0 → s.ownerSession ctx = some n →
    ∃ s', exec (.remoteWriteRefusal ctx peer addr) s = .next s' ∧ SameMemory s s' ∧
      Told s s' n 7 ctx [addr, (Table.get PeerEntry.reset s.host.peers ((ctx - 1) * 16 + peer)).endpoint])

end

namespace Sys2Proof.Machine


/-! ### Launches, tasks and work graphs (R298 to R327, R345) -/

/-- The end of a launch or a node waits for nothing: its record and its ring's DONE can be written and the course steps can end (R327, R336, R340). -/
structure MayEnd (s : State) (grid : Nat) (l : Launch) : Prop where
  record : l.reason ≠ 12 → ∀ s1, schedPlace s l.ctx l.block.compl ≠ .wait s1
  done : s.wordReady l.ctx (l.ring + 16) = true
  course : s.courseReady l.ctx (fun k => k.launch == grid) = true

end Sys2Proof.Machine

section
open Sys2Proof Sys2Proof.Machine

/-- From queue to team. LAUNCH_ACCEPT lists a block under the next %grid and makes it a waiting gang, or a node, once the checks of R303 pass, or ends
it rejected (R298, R303, R314); GANG_BIND binds the chosen gang to cores of its context or keeps it chosen (R306, R310); BIND_RECORD_VALID lets dispatch
make the team of a record, or refuses it (R307, R308); BIND_RECORD_GO starts a task whose records are all valid, and the further clusters of a STREAM
launch (R306, R308, R321, R345). -/
def Obligations.LaunchSteps : Prop :=
  (∀ (q rd tail v w : Nat) (s : State),
    let e := Table.get LaunchQ.reset s.sched.queues q
    let va := e.base + 256 + 256 * (rd % 2 ^ e.logn)
    let b : Block := BitVec.ofNat 2048 (v + w * 2 ^ 512)
    let s0 := s.wakeUp
    let grid := s0.sched.gridSeq
    let l := Launch.fresh b e.ctx q e.base rd (s0.teamDies e.ctx)
    e.en = true → e.frozen = false → s.sched.stopped = false → (s.hours.power = .p0 ∨ s.hours.power = .p1) →
    s.ringRead e.ctx (e.base + 8) 8 = .ok s rd → s.ringRead e.ctx (e.base + 24) 8 = .ok s tail →
    (tail ≤ rd → exec (.launchAccept q) s = .next s) ∧
    (rd < tail → s.ringRead e.ctx va 64 = .ok s v →
      (v / 2 ^ 8 % 2 ^ 8 ≠ rd / 2 ^ e.logn % 255 + 1 → exec (.launchAccept q) s = .next s) ∧
      (v / 2 ^ 8 % 2 ^ 8 = rd / 2 ^ e.logn % 255 + 1 → s.ringRead e.ctx (va + 64) 192 = .ok s w →
        ∀ (s1 : State) (reason : Nat) (pages : Table Nat), s0.checkLaunch grid l = .ok s1 (reason, pages) → s1.courseReady e.ctx (fun _ => false) = true →
        (reason = 0 → b.node = false → ∃ s', exec (.launchAccept q) s = .next s' ∧ s'.sched.gridSeq = grid + 1 ∧
          s'.sched.launches.find grid = some { l with pages := pages } ∧
          s'.sched.gangs = s1.sched.gangs ++ [{ grid := grid, first := 0, records := [], slice := 0, since := s1.ns, poisoned := false }]) ∧
        (reason = 0 → b.node = true → s1.nodeCount e.ctx < 4096 → ∃ s', exec (.launchAccept q) s = .next s' ∧ s'.sched.gridSeq = grid + 1 ∧
          s'.sched.launches.find grid = some { l with pages := pages } ∧
          s'.sched.graph.find grid = some { grid := grid, state := .live, predEnds := 0, pallets := [] } ∧
          s'.sched.nodes.find (nodeKey e.ctx b.nodeid) = some grid ∧ s'.sched.gangs = s1.sched.gangs) ∧
        (reason = 0 → b.node = true → 4096 ≤ s1.nodeCount e.ctx → exec (.launchAccept q) s = .next s1) ∧
        (reason ≠ 0 → ∃ s', exec (.launchAccept q) s = .next s' ∧ s'.sched.gridSeq = grid + 1 ∧
          ∀ l', s'.sched.launches.find grid = some l' → l'.ended = true ∧ l'.reason = reason)))) ∧
  (∀ (ctx : Nat) (g : Gang) (l : Launch) (s : State), s.sched.stopped = false → (s.hours.power = .p0 ∨ s.hours.power = .p1) →
    s.chooseGang ctx = some g → s.sched.launches.find g.grid = some l →
    (∀ s1, s.wakeUp.bindGang g = some s1 →
      (l.block.stream = false → ∃ s' x, exec (.gangBind ctx) s = .next s' ∧ s'.sched.tasks.find s.sched.taskSeq = some x ∧
        s'.sched.taskSeq = s.sched.taskSeq + 1 ∧ x.grid = g.grid ∧ x.ctx = l.ctx ∧ x.state = .bound ∧ x.gang = g ∧
        s'.sched.gangs = s.sched.gangs.filter (fun y => y != g) ∧ SameMemory s s' ∧
        ∀ p ∈ x.teams, (s.ctx l.ctx).cores.getLsbD p.1 = true ∧ p.1 ∉ s.hours.fenced.cores ∧ (s.die (p.1 / 48)).state = .online ∧ p.2 < 48) ∧
      (l.block.stream = true → ∃ s', exec (.gangBind ctx) s = .next s' ∧ SameMemory s s' ∧
        s'.sched.taskSeq = (if (s.taskFor g l.block).isSome then s.sched.taskSeq else s.sched.taskSeq + 1) ∧
        s'.sched.gangs = s.sched.gangs.flatMap (fun y => if y = g then (if g.first + 1 < l.block.clusters then [{ g with first := g.first + 1 }] else [])
          else [y]))) ∧
    (s.wakeUp.bindGang g = none → s.sched.preempt = false →
      exec (.gangBind ctx) s = .next { s with sched := { s.sched with stuck := s.sched.stuck.insert ctx g } })) ∧
  (∀ (core r task : Nat) (x : Task) (l : Launch) (s : State), s.sched.tasks.find? (fun t => t.2.teams.contains (core, r)) = some (task, x) →
    s.sched.launches.find x.grid = some l → (s.bindRec core r).getLsbD 0 = false → (s.bindRec core r).getLsbD 22 = false →
    s.team core r = none → s.sched.stopped = false →
    (s.recordClash core r = true → ∃ s', exec (.bindRecordValid core r) s = .next s' ∧ s'.bindRec core r = s.bindRec core r ||| (1#512 <<< 22) ∧
      s'.team core r = none) ∧
    (s.recordClash core r = false → ∃ s' m, exec (.bindRecordValid core r) s = .next s' ∧ s'.bindRec core r = s.bindRec core r ||| 1 ∧
      s'.team core r = some m ∧ SameMemory s s' ∧ m.state = .running ∧ m.ids.task = task ∧ m.ids.ctx = ((s.bindRec core r).extractLsb' 8 8).toNat ∧
      m.env.scratchBase = ((s.bindRec core r).extractLsb' 256 8).toNat * 4096 ∧ m.env.codePages = l.pages ∧
      m.groups.map (·.role) = l.block.roles ∧ m.bars = (List.range 16).map (fun j => Barrier.fresh (l.block.barrier j).1 (l.block.barrier j).2) ∧
      ∀ g ∈ m.groups, g.budget = l.block.budget g.role ∧ g.threads.length = 32 ∧ ∀ (k : Nat) (th : Thread), g.threads[k]? = some th →
        th.pc = BitVec.ofNat 64 (l.block.entry g.role) ∧ th.xmode = l.block.xmode ∧ th.regs = [] ∧ th.preds = [] ∧ th.status = .run ∧
        th.seed = BitVec.ofNat 64 (k * 0x9E3779B97F4A7C15))) ∧
  (∀ (task : Nat) (x : Task) (s : State), s.sched.tasks.find task = some x → s.sched.stopped = false → x.inboxDone = true →
    (∀ p ∈ x.teams, (s.bindRec p.1 p.2).getLsbD 0 = true) → (∃ p ∈ x.teams, (s.bindRec p.1 p.2).getLsbD 1 = false) →
    (x.state = .bound → (∀ y ∈ s.sched.tasks, y.1 < task → y.2.state ≠ .bound) →
      ∃ s' x', exec (.bindRecordGo task) s = .next s' ∧ s'.sched.tasks.find task = some x' ∧
        x'.state = (if (s.blockOf x.grid).nonidem then .committed else .opened) ∧ x'.watch = s.ns ∧
        ∀ p ∈ x.teams, (s'.bindRec p.1 p.2).getLsbD 1 = true ∧ (s'.bindRec p.1 p.2).getLsbD 0 = true) ∧
    (x.state = .opened ∨ x.state = .committed → ∃ s', exec (.bindRecordGo task) s = .next s' ∧ s'.sched = s.sched ∧
      ∀ p ∈ x.teams, (s'.bindRec p.1 p.2).getLsbD 1 = true ∧ (s'.bindRec p.1 p.2).getLsbD 0 = true))

/-- Work graphs and ends. CONTINUATION_RECORD_ARRIVAL puts a released record into its pallet, where its slice is full into a slot of the spill area or the
core's record buffer, drops one that names no successor, and cancels one for a node that is Cancelling (R316, R319, R325); PALLET_TIMER_EXPIRY fires a whole pallet (R317); RETIRE cancels a node of a context that the session owns (R325, R350); NODE_END and LAUNCH_END
end a node or a launch with nothing left, in the STATE of R326. -/
def Obligations.GraphSteps : Prop :=
  (∀ (idx : Nat) (r : TPost) (s : State), s.sched.tposts[idx]? = some r → s.postWaits r = false →
    let slice := s.homeSlice (s.affinityKey r.ctx (recAffinity r.data))
    let id := (r.data.extractLsb' 48 16).toNat
    s.postedBefore idx r slice = false → s.releaseReady r.ctx (r.core / 48) (s.affinityKey r.ctx (recAffinity r.data)) 4 = true →
    (id ∉ s.succsOf r.grid → ∃ s', exec (.continuationRecordArrival idx) s = .next s' ∧
      s'.sched.tposts = s.sched.tposts.eraseIdx idx ∧ s'.sched.graph = s.sched.graph ∧
      ∀ l, s.sched.launches.find r.grid = some l → ∃ l', s'.sched.launches.find r.grid = some l' ∧
        l'.summary.badrec = min (l.summary.badrec + 1) (2 ^ 32 - 1)) ∧
    (∀ (g : Nat) (n : Node), id ∈ s.succsOf r.grid → s.nodeNamed r.ctx id = some (g, n) →
      (n.state ≠ .live → ∀ l, s.sched.launches.find g = some l → ∃ s' l', exec (.continuationRecordArrival idx) s = .next s' ∧
        s'.sched.tposts = s.sched.tposts.eraseIdx idx ∧ s'.sched.graph = s.sched.graph ∧ s'.sched.launches.find g = some l' ∧
        l'.summary.cancelled = min (l.summary.cancelled + 1) (2 ^ 32 - 1)) ∧
      (n.state = .live → (∀ p ∈ n.pallets, p.2.length < (s.blockOf g).coal) → (Table.get [] n.pallets slice).length + 1 < (s.blockOf g).coal →
        (s.blockOf g).preds = 0 →
        let held := fun (s' : State) (spilled : Option Nat) => s'.sched.tposts = s.sched.tposts.eraseIdx idx ∧
          s'.sched.graph.find g = some { n with pallets := Table.put [] n.pallets slice (Table.get [] n.pallets slice ++
            [{ data := r.data, task := r.task, arrived := s.ns, spilled := spilled, poisoned := false }]) } ∧ s'.sched.gangs = s.sched.gangs
        (s.storedAt slice < 2048 → ∃ s', exec (.continuationRecordArrival idx) s = .next s' ∧ held s' none) ∧
        (2048 ≤ s.storedAt slice →
          (∀ s1 k, s.spillRecord r.ctx r.data = .ok s1 k → ∃ s', exec (.continuationRecordArrival idx) s = .next s' ∧ held s' (some k)) ∧
          (∀ s1 st v, s.spillRecord r.ctx r.data = .refused s1 st v → exec (.continuationRecordArrival idx) s = .next (if 8 ≤ s.waitingAt r.core then s
            else { s with sched := { s.sched with tposts := s.sched.tposts.modify idx (fun x => { x with waiting := true }) } })))))) ∧
  (∀ (ctx node slice g : Nat) (n : Node) (r : ContRec) (rs : List ContRec) (s : State), s.nodeNamed ctx node = some (g, n) →
    Table.get [] n.pallets slice = r :: rs → n.state = .live → (s.blockOf g).timer ≠ 0 → r.arrived + (s.blockOf g).timer * 1000 ≤ s.ns →
    s.sched.graph.find g = some n →
    ∃ s' q n', exec (.palletTimerExpiry ctx node slice) s = .next s' ∧ SameMemory s s' ∧ s'.sched.gangs = s.sched.gangs ++ [q] ∧ q.grid = g ∧
      q.records = r :: rs ∧ q.slice = slice ∧ s'.sched.graph.find g = some n' ∧ Table.get [] n'.pallets slice = []) ∧
  (∀ (session node ctx : Nat) (s : State),
    ((s.owns session ctx = false ∨ s.live ctx = false) → ∃ s', exec (.retire session node ctx) s = .next s' ∧ s'.sched = s.sched ∧
      SameMemory s s' ∧ Told s s' session 12 0 [0x20020]) ∧
    (∀ (g : Nat) (n : Node), s.owns session ctx = true → s.live ctx = true → s.nodeNamed ctx node = some (g, n) →
      ∃ s' n', exec (.retire session node ctx) s = .next s' ∧ s'.sched.graph.find g = some n' ∧ n'.state = .cancelling true ∧
        s'.sched.retire = node % 2 ^ 16 + ctx % 2 ^ 8 * 2 ^ 16 ∧ (n.state = .live → n'.pallets = [] ∧ ∀ q ∈ s'.sched.gangs, q.grid ≠ g))) ∧
  (∀ (ctx node g : Nat) (n : Node) (l : Launch) (s : State), s.nodeNamed ctx node = some (g, n) → s.sched.launches.find g = some l → n.held = [] →
    s.sched.stopped = false → (l.block.preds ≠ 0 ∧ l.block.preds ≤ n.predEnds ∨ n.state = .cancelling true) → s.busyGrid g = false →
    (∀ r ∈ s.sched.tposts, r.grid ≠ g) → MayEnd s g l →
    let failed := l.summary.failed = true ∨ l.summary.watchdog = true
    ∃ s' state, exec (.nodeEnd ctx node) s = .next s' ∧ s'.sched.graph.find g = none ∧
      s' = ({ s with sched := { s.sched with graph := s.sched.graph.erase g } }).finishGrid g state ∧ (failed → state = 2) ∧
      (¬ failed → n.state = .cancelling true → state = 6) ∧ (¬ failed → n.state = .live → state = 1) ∧ (¬ failed → n.state = .cancelling false → state = 4)) ∧
  (∀ (grid : Nat) (l : Launch) (s : State), s.sched.launches.find grid = some l → l.ended = false → s.sched.graph.find grid = none →
    s.sched.stopped = false → s.busyGrid grid = false → (∀ r ∈ s.sched.tposts, r.grid ≠ grid) → MayEnd s grid l →
    let m := l.summary
    let state := if l.reason ≠ 0 then 5 else if m.killed then 2 else if m.watchdog then 3 else if m.failed then 2 else 1
    ∃ s', exec (.launchEnd grid) s = .next s' ∧ s' = s.finishGrid grid state ∧
      (∀ l', s'.sched.launches.find grid = some l' → l'.ended = true) ∧
      (l.reason = 12 → l.ctx ≠ 0 → ∀ n, s.ownerSession l.ctx = some n → Told s s' n 2 l.ctx [l.queue, l.order, 12]))

/-- The life of a task. WATCHDOG_EXPIRY stops every team of a task without an event for WATCHDOG ms, with no trap cause (R322); TASK_FAILURE
fails a task of which a team has stopped or whose watchdog has expired, and freezes its launch queue (R324); one without a team is at its end.
TEAM_STATE_RELEASE frees a team's record (R194, R308); DISCARD_REPORT lets a task that committed go on, and discards any other (R345). -/
def Obligations.TaskSteps : Prop :=
  (∀ (task : Nat) (x : Task) (s : State), s.sched.tasks.find task = some x → (x.state = .opened ∨ x.state = .committed) →
    s.sched.stopped = false → x.watch + s.sched.watchdog * 1000000 ≤ s.ns →
    ∃ s', exec (.watchdogExpiry task) s = .next s' ∧ SameMemory s s' ∧
      s'.sched.tasks.find task = some (if x.failed then x else { x with summary := { x.summary with watchdog := true } }) ∧ ∀ p ∈ x.teams, ∀ m, s.team p.1 p.2 = some m →
      ∃ m', s'.team p.1 p.2 = some m' ∧ { m' with state := m.state } = m ∧ (m.state = .running → m'.state = .stopped 0 0 0 s.tick)) ∧
  (∀ (task : Nat) (x : Task) (l : Launch) (s : State), s.sched.tasks.find task = some x → (x.state = .opened ∨ x.state = .committed) →
    x.failed = false → s.sched.stopped = false → s.sched.launches.find x.grid = some l →
    (x.summary.watchdog = true ∨ ∃ p ∈ x.teams, ∃ m, s.team p.1 p.2 = some m ∧ ∃ c pc a n, m.state = .stopped c pc a n) →
    (x.teams = [] → ∃ s', exec (.taskFailure task) s = .next s' ∧ s'.sched.tasks.find task = none ∧
      (Table.get LaunchQ.reset s'.sched.queues l.queue).frozen = true) ∧
    (x.teams ≠ [] → ∃ s' x' l', exec (.taskFailure task) s = .next s' ∧ SameMemory s s' ∧ s'.sched.tasks.find task = some x' ∧ x'.failed = true ∧
      s'.sched.launches.find x.grid = some l' ∧ (x.summary.watchdog = false → l'.summary.failed = true) ∧
      (x.summary.watchdog = true → l'.summary.watchdog = true) ∧ (Table.get LaunchQ.reset s'.sched.queues l.queue).frozen = true)) ∧
  (∀ (core r : Nat) (m : Team) (s : State), s.team core r = some m → s.stateHeld core r m = false →
    ∃ s', exec (.teamStateRelease core r) s = .next s' ∧ s'.team core r = none ∧ (s'.bindRec core r).getLsbD 0 = false ∧
      (s'.bindRec core r).getLsbD 1 = false ∧ ∀ x, s'.sched.tasks.find m.ids.task = some x → (core, r) ∉ x.teams) ∧
  (∀ (task : Nat) (x : Task) (s : State), s.sched.tasks.find task = some x → s.sched.stopped = false → s.taskTurn task = false →
    (x.state = .stopping true → ∃ s' x', exec (.discardReport task) s = .next s' ∧ SameMemory s s' ∧
      s'.sched.tasks.find task = some x' ∧ x'.state = .committed ∧ x'.watch = x.watch + (s.ns - x.paused) ∧
      (x.mailbox = true → s'.box.busy = false ∧ s'.box.result = 2) ∧ ∀ p ∈ x.teams, (s.bindRec p.1 p.2).getLsbD 0 = true → (s'.bindRec p.1 p.2).getLsbD 1 = true) ∧
    (x.state = .stopping false → ∃ s', exec (.discardReport task) s = .next s' ∧
      ∀ x', s'.sched.tasks.find task = some x' → x'.state = .discarding true))

end

namespace Sys2Proof.Machine


/-! ### Contexts, regions, the host, the keystone and the hours (R299, R300, R328 to R351, R387 to R414) -/

/-- An operation of the context mailbox ends with a result, and event 4 tells the session that owns the context, or for a free one that asked (R330). -/
structure BoxEnds (s s' : State) (result : Nat) : Prop where
  box : s'.box = { s.box with busy := false, begun := false, result := result }
  told : ∀ n, s.ownerSession s.box.ctx = some n → (s.ctx s.box.ctx).state ≠ .free → Told s s' n 4 s.box.ctx [s.box.op, result]
  asker : (s.ctx s.box.ctx).state = .free → Told s s' s.box.session 4 s.box.ctx [s.box.op, result]

/-- A mailbox holds an operation of a session, on a live context that the session owns (R330). -/
structure BoxRuns (s : State) (b : Mailbox) (session op : Nat) : Prop where
  busy : b.busy = true
  begun : b.begun = false
  op : b.op = op
  asker : b.session = session
  ctx : 1 ≤ b.ctx ∧ b.ctx ≤ 64
  live : (s.ctx b.ctx).state = .live
  owner : (s.ctx b.ctx).owner = s.ownerOf session

/-- An operation of the keystone's mailbox ends with a result (R406). -/
structure KeyEnds (s s' : State) (result : Nat) : Prop where
  box : s'.keystone.box = { s.keystone.box with busy := false, begun := false, result := result }
  told : ∀ n, s.ownerSession s.keystone.box.ctx = some n → (s.ctx s.keystone.box.ctx).state ≠ .free →
    Told s s' n 4 s.keystone.box.ctx [s.keystone.box.op, result]

/-- A region entry with no drain, no thaw and no event held. -/
def Region.idle (r : Region) : Prop := r.valid = true ∧ r.draining = false ∧ r.thawing = false

end Sys2Proof.Machine

section
open Sys2Proof Sys2Proof.Machine

/-- The context mailbox (R328 to R330, R335, R338, R341, R345). CREATE writes the entry of its image where a key slot is free, CONTEXT_KEY_DERIVED makes it
live; TEARDOWN stops its queues, TEARDOWN_COMPLETE frees it; SETREGION writes a region entry that is not in use; INVAL drops TLB entries; DISCARD clears
GO of an Open task; REPART and REPART_TAKES_EFFECT move its cores and grants. -/
def Obligations.ContextSteps : Prop :=
  (∀ (session : Nat) (i : BitVec 1024) (s : State), let c := s.box.ctx
    s.box.busy = true → s.box.begun = false → s.box.op = 1 → s.box.session = session → s.schedUp = true → 1 ≤ c → c ≤ 64 →
    (s.ctx c).state = .free → s.readImage s.box.arg0 = .ok s (some i) → s.imageOk c i = true →
    (s.keySlotsLeft = false → ∃ s', exec (.create session) s = .next s' ∧ BoxEnds s s' 4 ∧ SameMemory s s' ∧ s'.ctxs = s.ctxs) ∧
    (s.keySlotsLeft = true → ∃ s', exec (.create session) s = .next s' ∧ s'.box = { s.box with begun := true } ∧ SameMemory s s' ∧ (∀ k, k ≠ c → s'.ctx k = s.ctx k) ∧
      s'.ctx c = { Ctx.reset with
        state := .creating, owner := s.ownerOf session, ptroot := (i.extractLsb' 64 48).toNat, cores := i.extractLsb' 128 192,
        grant := (List.range 4).map (fun d => ((i.extractLsb' (320 + 16 * d) 7).toNat, (i.extractLsb' (328 + 16 * d) 8).toNat)),
        poolBase := (i.extractLsb' 384 32).toNat, poolLen := (i.extractLsb' 416 32).toNat, spill := (i.extractLsb' 448 48).toNat,
        spillLen := (i.extractLsb' 496 16).toNat, peers := i.extractLsb' 512 16 })) ∧
  (∀ (ctx : Nat) (s : State), (s.ctx ctx).state = .creating → s.hours.power ≠ .p3 →
    ∃ s', exec (.contextKeyDerived ctx) s = .next s' ∧ SameMemory s s' ∧ s'.keystone = { s.keystone with nonces := s.keystone.nonces + 1 } ∧
      s'.ctx ctx = { s.ctx ctx with state := .live, key := some (Config.derivedKey (s.ctx ctx).owner s.keystone.nonces), keyNo := s.keystone.nonces } ∧
      (s.box.busy = true → s.box.op = 1 → s.box.ctx = ctx → BoxEnds s s' 0)) ∧
  (∀ (session : Nat) (s : State), BoxRuns s s.box session 2 → s.schedUp = true →
    ∃ s', exec (.teardown session) s = .next s' ∧ (s'.ctx s.box.ctx).state = .tearing ∧
      ∀ q, (Table.get LaunchQ.reset s'.sched.queues q).ctx = s.box.ctx → (Table.get LaunchQ.reset s'.sched.queues q).en = false) ∧
  (∀ (ctx : Nat) (s : State), (s.ctx ctx).state = .tearing → s.ctxBusy ctx = false →
    ∃ s', exec (.teardownComplete ctx) s = .next s' ∧ s'.ctx ctx = Ctx.reset ∧ (∀ r ∈ s'.releases, r.ctx ≠ ctx) ∧
      (∀ d w x, d < 4 → (s'.die d).windows.find w = some x → x.ctx ≠ ctx) ∧
      (s.box.busy = true → s.box.op = 2 → s.box.ctx = ctx → BoxEnds s s' 0)) ∧
  (∀ (session : Nat) (s : State), BoxRuns s s.box session 3 → s.schedUp = true → let c := s.box.ctx
    let old := s.region c s.box.idx
    ((old.fcount ≠ 0 ∨ old.thawing = true ∨ old.draining = true) → ∃ s', exec (.setregion session) s = .next s' ∧ BoxEnds s s' 2 ∧
      SameMemory s s') ∧
    (old.fcount = 0 → old.thawing = false → old.draining = false →
      (regionOf s (s.ctx c).owner s.box.arg0 s.box.arg1 = none → ∃ s', exec (.setregion session) s = .next s' ∧ BoxEnds s s' 1 ∧ SameMemory s s') ∧
      (∀ r, regionOf s (s.ctx c).owner s.box.arg0 s.box.arg1 = some r →
        (s.rangeDrains c old = false ∨ s.rangeDrains c r = false → exec (.setregion session) s = .next s) ∧
        (s.rangeDrains c old = true → s.rangeDrains c r = true → ∃ s', exec (.setregion session) s = .next s' ∧
          s'.region c s.box.idx = { r with held := old.held } ∧ s'.box = { s.box with busy := false, begun := false, result := 0 })))) ∧
  (∀ (session : Nat) (s : State), BoxRuns s s.box session 6 → s.schedUp = true → let a := s.box.arg0
    let n := s.box.arg1
    let hit := fun (l : Leaf) => l.ctx = s.box.ctx ∧ (n = 0 ∨ l.base < a + n ∧ a < l.base + l.size)
    (n ≠ 0 → 2 ^ 48 < a + n → ∃ s', exec (.inval session) s = .next s' ∧ BoxEnds s s' 1 ∧ SameMemory s s') ∧
    (n = 0 ∨ a + n ≤ 2 ^ 48 → (∀ c, ∀ l ∈ (s.core c).tlb, l.base < 2 ^ 48 ∧ 0 < l.size) → (∀ d, ∀ l ∈ (s.die d).tlb, l.base < 2 ^ 48 ∧ 0 < l.size) →
      ∃ s', exec (.inval session) s = .next s' ∧ BoxEnds s s' 0 ∧ SameMemory s s' ∧
        (∀ c l, l ∈ (s'.core c).tlb ↔ l ∈ (s.core c).tlb ∧ ¬ hit l) ∧ ∀ d l, l ∈ (s'.die d).tlb ↔ l ∈ (s.die d).tlb ∧ ¬ hit l)) ∧
  (∀ (session : Nat) (x : Task) (s : State), BoxRuns s s.box session 7 → s.schedUp = true → s.sched.tasks.find s.box.arg0 = some x → x.ctx = s.box.ctx →
    (x.state = .opened → ∃ s' x', exec (.discard session) s = .next s' ∧ SameMemory s s' ∧ s'.box = { s.box with begun := true } ∧
      s'.sched.tasks.find s.box.arg0 = some x' ∧ x'.state = .stopping false ∧ x'.mailbox = true ∧
      ∀ p ∈ x.teams, (s.bindRec p.1 p.2).getLsbD 0 = true → (s'.bindRec p.1 p.2).getLsbD 1 = false) ∧
    (∀ commit, x.state = .stopping commit → ∃ s', exec (.discard session) s = .next s' ∧ SameMemory s s' ∧ s'.box = { s.box with begun := true } ∧
      s'.sched.tasks.find s.box.arg0 = some { x with mailbox := true }) ∧
    ((x.state = .bound ∨ x.state = .committed) → ∃ s', exec (.discard session) s = .next s' ∧ BoxEnds s s' 2 ∧ SameMemory s s')) ∧
  (∀ (session : Nat) (i : BitVec 1024) (s : State), BoxRuns s s.box session 8 → s.schedUp = true → s.readImage s.box.arg0 = .ok s (some i) →
    s.imageOk s.box.ctx i = true →
    ∃ s', exec (.repart session) s = .next s' ∧ BoxEnds s s' 0 ∧ SameMemory s s' ∧ s'.ctx s.box.ctx = { s.ctx s.box.ctx with
      peers := i.extractLsb' 512 16, repart := some (i.extractLsb' 128 192, (List.range 4).map (fun d =>
        ((i.extractLsb' (320 + 16 * d) 7).toNat, (i.extractLsb' (328 + 16 * d) 8).toNat))) }) ∧
  (∀ (ctx : Nat) (cores : BitVec 192) (grant : List (Nat × Nat)) (s : State), (s.ctx ctx).repart = some (cores, grant) →
    s.boundOn ctx (fun c => (s.ctx ctx).cores.getLsbD c && !cores.getLsbD c) = false →
    (∀ g ∈ ((s.ctx ctx).grant.zip grant).zipIdx, grantLost g.1.1 g.1.2 ≠ [] →
      s.boundOn ctx (fun c => dieOf c == g.2) = false ∧ s.commandsOn ctx g.2 = false) →
    ∃ s', exec (.repartTakesEffect ctx) s = .next s' ∧ (s'.ctx ctx).cores = cores ∧ (s'.ctx ctx).grant = grant ∧
      (s'.ctx ctx).repart = none)

/-- Freezing and thawing a region (R192, R330, R342, R343). MAILBOX_FREEZE drains a range that was not frozen and counts in one that is;
MAILBOX_THAW counts down, and at 1 begins to collect replicas; each die takes the change at a moment of its own (R339). FREEZE_DRAIN_END and
THAW_COLLECTION_END deliver what is owed; PEER_THAW_ACK and
THAWLIMIT_EXPIRY take peers out of the collection, the latter with event 8. -/
def Obligations.FreezeSteps : Prop :=
  (∀ (session : Nat) (s : State), BoxRuns s s.box session 4 → s.schedUp = true → let c := s.box.ctx
    let r := s.region c s.box.idx
    (r.idle → r.fcount = 0 → ∃ s', exec (.mailboxFreeze session) s = .next s' ∧ SameMemory s s' ∧ s'.box = { s.box with begun := true } ∧
      s'.region c s.box.idx = { r with fcount := 1, draining := true, owes := [.mailbox], lag := 0xF, wasCount := 0, wasThawing := false }) ∧
    (r.idle → 1 ≤ r.fcount → r.fcount < 255 → ∃ s', exec (.mailboxFreeze session) s = .next s' ∧ SameMemory s s' ∧ BoxEnds s s' 0 ∧
      s'.region c s.box.idx = { r with fcount := r.fcount + 1 }) ∧
    (r.valid = false ∨ r.idle ∧ 255 ≤ r.fcount → ∃ s', exec (.mailboxFreeze session) s = .next s' ∧ SameMemory s s' ∧ BoxEnds s s' 2 ∧
      s'.region c s.box.idx = r)) ∧
  (∀ (session : Nat) (s : State), BoxRuns s s.box session 5 → s.schedUp = true → let c := s.box.ctx
    let r := s.region c s.box.idx
    (r.idle → r.fcount = 1 → ∃ s', exec (.mailboxThaw session) s = .next s' ∧ SameMemory s s' ∧ s'.box = { s.box with begun := true } ∧
      s'.region c s.box.idx = { r with fcount := 0, thawing := true, owes := [.mailbox], peersLeft := (s.ctx c).peerList, since := s.ns, lag := 0xF,
                                       wasCount := 1, wasThawing := false } ∧
      s'.host.netOut = s.host.netOut ++ (s.ctx c).peerList.map (fun j => .collect c j s.box.idx)) ∧
    (r.idle → 2 ≤ r.fcount → ∃ s', exec (.mailboxThaw session) s = .next s' ∧ SameMemory s s' ∧ BoxEnds s s' 0 ∧
      s'.region c s.box.idx = { r with fcount := r.fcount - 1 }) ∧
    (r.valid = false ∨ r.idle ∧ r.fcount = 0 → ∃ s', exec (.mailboxThaw session) s = .next s' ∧ SameMemory s s' ∧ BoxEnds s s' 2 ∧
      s'.region c s.box.idx = r)) ∧
  (∀ (ctx idx : Nat) (s : State), let r := s.region ctx idx
    r.draining = true → r.held = [] →
    (s.resolveRange ctx r).drainable (fun k _ => s.inRange ctx (r.base * 65536) ((r.base + r.size) * 65536) k) (List.range 4) = true →
    ∃ s', exec (.freezeDrainEnd ctx idx) s = .next s' ∧
      s'.region ctx idx = { r with draining := false, owes := [], lag := 0 } ∧
      (r.owes = [.mailbox] → s'.box = { s.box with busy := false, begun := false, result := 0 }) ∧
      ∀ core tr n task cluster m b, r.owes = [.team core tr n task cluster] → s.team core tr = some m → m.ids.task = task → m.ids.cluster = cluster →
        m.bars[n]? = some b → b.own →
        s'.bar core tr n = some (b.event (·.arrive false))) ∧
  (∀ (ctx idx peer : Nat) (s : State), let r := s.region ctx idx
    exec (.peerThawAck ctx idx peer) s = .next (s.setRegion ctx idx { r with peersLeft := r.peersLeft.filter (· != peer) })) ∧
  (∀ (ctx idx j : Nat) (rest : List Nat) (s : State), let r := s.region ctx idx
    r.thawing = true → r.peersLeft = j :: rest → r.since + s.sched.thawlimit * 1000000 ≤ s.ns →
    ∃ s', exec (.thawlimitExpiry ctx idx) s = .next s' ∧ SameMemory s s' ∧ s'.region ctx idx = { r with peersLeft := [] } ∧
      (∀ k, k < 16 → (s'.ctx ctx).peers.getLsbD k = ((s.ctx ctx).peers.getLsbD k && !r.peersLeft.contains k) ∧
        (s'.ctx ctx).cut.getLsbD k = ((s.ctx ctx).cut.getLsbD k || r.peersLeft.contains k)) ∧
      ∀ n, rest = [] → ctx ≠ 0 → s.ownerSession ctx = some n → Told s s' n 8 ctx [j]) ∧
  (∀ (ctx idx : Nat) (s : State), let r := s.region ctx idx
    r.thawing = true → r.peersLeft = [] → r.held = [] → ∃ s', exec (.thawCollectionEnd ctx idx) s = .next s' ∧
      s'.region ctx idx = { r with thawing := false, owes := [], lag := 0xF, wasCount := r.fcount, wasThawing := true } ∧
      (r.owes = [.mailbox] → s'.far = s.far ∧ s'.box = { s.box with busy := false, begun := false, result := 0 }))

/-- The host's side (R217, R299, R300, R349 to R351, R412, R414): queue entries and windows that a session may write take the fields of the value,
and one that names a context the session does not own raises event 12; a session opens with its owner id; a request is answered with the
register space's bytes or with those of the window's context, waits for its page or its region, and behind an earlier one of its channel that waits;
GCL_FENCE is answered once every earlier one has been. -/
def Obligations.HostSteps : Prop :=
  (∀ (session q : Nat) (val : BitVec 256) (s : State), let e := Table.get LaunchQ.reset s.sched.queues q
    let i : Instr := .launchQueueEntryWrite session q val
    let ctx := (val.extractLsb' 8 8).toNat
    let logn := (val.extractLsb' 2 6).toNat
    q < 16 → s.schedUp = true → e.en = false → val.getLsbD 0 = true →
    (s.mayName session ctx = true → 6 ≤ logn → logn ≤ 16 → ∃ s', exec i s = .next s' ∧ SameMemory s s' ∧
      (∀ k, k ≠ q → s'.sched.queues.find k = s.sched.queues.find k) ∧ Table.get LaunchQ.reset s'.sched.queues q =
        { en := true, frozen := e.frozen && !val.getLsbD 128, logn := logn, ctx := ctx, base := (val.extractLsb' 72 40).toNat * 256 }) ∧
    (s.mayName session ctx = false → ∃ s', exec i s = .next s' ∧ s'.sched = s.sched ∧ Told s s' session 12 0 [0x20100 + 32 * q])) ∧
  (∀ (session q : Nat) (s : State), let e := Table.get LaunchQ.reset s.sched.queues q
    s.schedUp = true → (e.ctx = 0 ∨ s.owns session e.ctx = true) → ∃ s', exec (.unfreeze session q) s = .next s' ∧ SameMemory s s' ∧
      Table.get LaunchQ.reset s'.sched.queues q = { e with frozen := false } ∧ s'.sched.launches = s.sched.launches) ∧
  (∀ (core q : Nat) (val : BitVec 128) (s : State), let e := (s.core core).hod.entry q
    let ctx := (val.extractLsb' 8 8).toNat
    let logn := (val.extractLsb' 2 6).toNat
    core < 192 → s.schedUp = true → 1 ≤ q → q < 8 → e.en = false → val.getLsbD 0 = true → s.live ctx = true → 6 ≤ logn → logn ≤ 16 →
    ∃ s', exec (.hodQueueEntryWrite core q val) s = .next s' ∧ SameMemory s s' ∧ (s'.core core).hod.entry q =
      { en := true, logn := logn, ctx := ctx, trec := (val.extractLsb' 16 6).toNat, tvalid := val.getLsbD 22,
        base := (val.extractLsb' 70 42).toNat * 64 }) ∧
  (∀ (session w : Nat) (val : BitVec 128) (s : State), w < 64 →
    (s.mayName session (val.extractLsb' 8 8).toNat = true → ∃ s', exec (.gclWindowWrite session w val) s = .next s' ∧ SameMemory s s' ∧
      s'.host.sessions = s.host.sessions ∧ Table.get Window.reset s'.host.windows w =
        { en := val.getLsbD 0, ctx := (val.extractLsb' 8 8).toNat, base := (val.extractLsb' 64 32).toNat }) ∧
    (s.mayName session (val.extractLsb' 8 8).toNat = false → ∃ s', exec (.gclWindowWrite session w val) s = .next s' ∧
      s'.host.windows = s.host.windows ∧ Told s s' session 12 0 [0x30000 + 16 * w])) ∧
  (∀ (owner : Nat) (s : State), s.hours.status.testBit 0 = true →
    let x : Session := { owner := owner % 2 ^ 16, events := [], lost := 0, seq := 0 }
    exec (.gclSessionOpen owner) s = .next { s with host := { s.host with
      sessions := s.host.sessions.insert s.host.sessions.length x } }) ∧
  (∀ (session ch : Nat) (s : State), (s.host.sessions.find session).isSome = true → ch < 64 → s.hours.power ≠ .p1 →
    (∀ q ∈ s.host.waiting, ¬ (q.session = session ∧ q.ch = ch)) →
    let reply (s : State) (st : GclStatus) (bs : List Byte) : Host.Outcome State Fault Refusal :=
      .next { s with host := { s.host with responses := s.host.responses ++ [{ session := session, ch := ch, status := st, data := bs }] } }
    let gives := fun (i : Instr) (k : GclKind) (g : HostGot) (n : Nat) (returns : Bool) =>
      (∀ s1 v, g = .ok s1 v → exec i s = reply s1 .ok (if returns then bytesLE v n else [])) ∧
      (∀ s1 st v, g = .refused s1 st v → exec i s = reply s1 st (if returns then bytesLE v n else [])) ∧
      (∀ s1, g = .wait s1 → exec i s = .next { s1 with host := { s1.host with waiting := s1.host.waiting ++ [{ session := session, ch := ch, kind := k }] } })
    (∀ addr len, addr < 0x2000000 → len ∈ [1, 2, 4, 8, 16, 32, 64] → addr % len = 0 →
      exec (.gclRead session ch addr len) s = reply s .ok ((List.range len).map (fun i => s.regByte session (addr + i)))) ∧
    (∀ addr len, len ∉ [1, 2, 4, 8, 16, 32, 64] → exec (.gclRead session ch addr len) s = reply s .badsize []) ∧
    (∀ v data, s.hours.power ≠ .p3 → 1 ≤ v → v ≤ 10000 → data = bytesLE v 8 →
      exec (.gclWrite session ch 0x20010 data) s = reply { s with sched := { s.sched with watchdog := v } } .ok []) ∧
    (∀ (data : Bytes), data.length = 8 → exec (.gclWrite session ch 0 data) s = reply s .ok []) ∧
    (∀ (win off len va : Nat), win < 64 → off < 2 ^ 30 → len ∈ [1, 2, 4, 8, 16, 32, 64] → off % len = 0 →
      let w := Table.get Window.reset s.host.windows win
      let addr := 0x4000000000 + win * 2 ^ 30 + off
      (w.en = false ∨ s.live w.ctx = false → exec (.gclRead session ch addr len) s = reply s .badaddr []) ∧
      (w.en = true → s.live w.ctx = true → va = w.base * 2 ^ 16 + off →
        gives (.gclRead session ch addr len) (.read addr len) (hostRead s w.ctx va len) len true ∧
        (∀ (data : Bytes), data.length = len →
          gives (.gclWrite session ch addr data) (.write addr data) (hostWrite s w.ctx va (numLE data) len 0) len false) ∧
        (∀ op x y, len = 8 → op ∈ [1, 3, 7, 8] → gives (.gclAtomic session ch addr op 8 x y) (.atomic addr op 8 x y)
          (hostAtomic s w.ctx va 8 0 { op := op, type := 0, operand := x % 2 ^ 64, comparand := y % 2 ^ 64 }) 8 true))) ∧
    exec (.gclFence session ch) s = reply s .ok [] ∧
    (∀ v, 1000 ≤ v → v ≤ 2800 →
      exec (.registerWrite session 0x90010 v) s = .next { s with hours := { s.hours with powercap := v } }) ∧
    ∀ v, exec (.registerWrite session 0 v) s = .next s) ∧
  (∀ (session ch : Nat) (s : State), (s.host.sessions.find session).isSome = true → ch < 64 → s.hours.power ≠ .p1 →
    (∃ q ∈ s.host.waiting, q.session = session ∧ q.ch = ch) →
    let held (k : GclKind) : Host.Outcome State Fault Refusal :=
      .next { s with host := { s.host with waiting := s.host.waiting ++ [{ session := session, ch := ch, kind := k }] } }
    (∀ addr len, exec (.gclRead session ch addr len) s = held (.read addr len)) ∧
    (∀ addr (data : Bytes), exec (.gclWrite session ch addr data) s = held (.write addr data)) ∧
    (∀ addr op size x y, op ∈ [1, 3, 7, 8] → exec (.gclAtomic session ch addr op size x y) s = held (.atomic addr op size x y)) ∧
    exec (.gclFence session ch) s = held .fence)

/-- The keystone's mailbox (R405 to R409). SHAREKEY gives an owner the lowest KEYID it does not hold, its first also without a context; DROPKEY drops a key that no region names;
ATTEST writes the report of 448 bytes with its signature of 96; GETCERT writes the certificate chain; STAGEFW stages an image that is signed and
not older than the security version. -/
def Obligations.KeystoneSteps : Prop :=
  (∀ (session n : Nat) (s : State), BoxRuns s s.keystone.box session 1 → let k := s.keystone
    let owner := s.ownerOf session
    (255 ≤ (k.keysOf owner).length ∨ s.keySlotsLeft = false → ∃ s', exec (.sharekey session) s = .next s' ∧ KeyEnds s s' 4 ∧ SameMemory s s' ∧
      s'.keystone.shared = k.shared) ∧
    ((k.keysOf owner).length < 255 → s.keySlotsLeft = true → 1 ≤ n → n ≤ 255 → n ∉ k.keysOf owner → (∀ m, 1 ≤ m → m < n → m ∈ k.keysOf owner) →
      ∃ s', exec (.sharekey session) s = .next s' ∧ SameMemory s s' ∧ s'.keystone = 
        { k with
          shared := k.shared ++ [(owner, n, k.nonces)], nonces := k.nonces + 1
          box := { k.box with arg0 := n, busy := false, begun := false, result := 0 } })) ∧
  (∀ (session : Nat) (s : State), let k := s.keystone
    let owner := s.ownerOf session
    k.box.busy = true → k.box.op = 1 → k.box.session = session → (k.box.ctx = 0 ∨ (s.ctx k.box.ctx).state = .free) → k.keysOf owner = [] →
    s.keySlotsLeft = true → ∃ s', exec (.sharekey session) s = .next s' ∧ SameMemory s s' ∧ s'.keystone =
      { k with
        shared := k.shared ++ [(owner, 1, k.nonces)], nonces := k.nonces + 1
        box := { k.box with arg0 := 1, busy := false, begun := false, result := 0 } }) ∧
  (∀ (session : Nat) (s : State), BoxRuns s s.keystone.box session 2 → let k := s.keystone
    let owner := s.ownerOf session
    (k.box.arg0 ∉ k.keysOf owner → ∃ s', exec (.dropkey session) s = .next s' ∧ KeyEnds s s' 1 ∧ s'.keystone.shared = k.shared) ∧
    (k.box.arg0 ∈ k.keysOf owner → s.keyUsed owner k.box.arg0 = true → ∃ s', exec (.dropkey session) s = .next s' ∧ KeyEnds s s' 2 ∧
      s'.keystone.shared = k.shared) ∧
    (k.box.arg0 ∈ k.keysOf owner → s.keyUsed owner k.box.arg0 = false → ∃ s', exec (.dropkey session) s = .next s' ∧ KeyEnds s s' 0 ∧
      s'.keystone.shared = k.shared.filter (fun e => !(e.1 == owner && e.2.1 == k.box.arg0)))) ∧
  (∀ (session : Nat) (s s1 s2 : State) (nonce x : List Byte), BoxRuns s s.keystone.box session 3 → let b := s.keystone.box
    let r := s1.report (s.ownerOf session) nonce
    let sig := (Config.signatureOf r ++ List.replicate 96 0).take 96
    (b.arg1 % 64 ≠ 0 → ∃ s', exec (.attest session) s = .next s' ∧ KeyEnds s s' 1 ∧ SameMemory s s') ∧
    (b.arg1 % 64 = 0 → keyRead s b.ctx b.arg0 48 = .ok s1 nonce → keyWrite s1 b.ctx b.arg1 (r ++ sig) = .ok s2 x →
    r.length = 448 ∧ ∃ s', exec (.attest session) s = .next s' ∧ KeyEnds s2 s' 0 ∧ SameMemory s2 s')) ∧
  (∀ (session : Nat) (s s1 : State) (x : List Byte), BoxRuns s s.keystone.box session 4 → let b := s.keystone.box
    keyWrite s b.ctx b.arg0 (Config.certificate.take b.arg1) = .ok s1 x →
    ∃ s', exec (.getcert session) s = .next s' ∧ KeyEnds s1 s' 0 ∧ SameMemory s1 s') ∧
  (∀ (session : Nat) (s s1 : State) (image : List Byte), BoxRuns s s.keystone.box session 5 → let b := s.keystone.box
    keyRead s b.ctx b.arg0 b.arg1 = .ok s1 image →
    (Config.signatureOk image = true → s.keystone.secver ≤ Config.imageVersion image →
      ∃ s', exec (.stagefw session) s = .next s' ∧ KeyEnds s1 s' 0 ∧ SameMemory s1 s' ∧ s'.keystone.staged = some image) ∧
    (Config.signatureOk image = false ∨ Config.imageVersion image < s.keystone.secver →
      ∃ s', exec (.stagefw session) s = .next s' ∧ s'.keystone.staged = s1.keystone.staged ∧
        s'.keystone.box = { s1.keystone.box with busy := false, begun := false, result := 1 }))

/-- Errors and fences (R387 to R400). A soft error is counted or poisons its word; a scrub that meets poison writes a record; containment, in the order of
detection, discards an Open task and stops a Committed one; a worn unit is fenced and GEN rises; a link counts its retry; the standby scheduler takes
over; a die begins to be fenced, goes to its tests with its counts and locks lost, and comes back or retires. -/
def Obligations.ErrorSteps : Prop :=
  (∀ (core word : Nat) (s : State), core < 192 → word < 131072 → PoisonAt.scratch core word ∉ s.hours.poison →
    ∃ s', exec (.softError 2 core word true) s = .next s' ∧ SameMemory s s' ∧
      s'.hours.poison = s.hours.poison ++ [.scratch core word]) ∧
  (∀ (core word : Nat) (s : State), core < 192 → word < 131072 →
    ∃ s', exec (.softError 2 core word false) s = .next s' ∧ SameMemory s s' ∧ s'.hours.poison = s.hours.poison ∧
      Table.get 0 s'.hours.telemetry 16 = min (Table.get 0 s.hours.telemetry 16 + 1) (2 ^ 64 - 1)) ∧
  (∀ (word : Nat) (s : State), PoisonAt.far word ∈ s.hours.poison → s.hours.contained = [] →
    ∃ s' r, exec (.patrolScrub 7 0 word) s = .next s' ∧ SameMemory s s' ∧ s'.sched = s.sched ∧ s'.hours.loghead = s.hours.loghead + 1 ∧
      s'.hours.log.find (s.hours.loghead % 256) = some r ∧ r.extractLsb' 0 8 = 3 ∧ r.extractLsb' 8 8 = 7 ∧
      r.extractLsb' 64 48 = BitVec.ofNat 48 (8 * word) ∧ r.extractLsb' 256 64 = BitVec.ofNat 64 s.ns) ∧
  (∀ (task unit core place addr : Nat) (rest : List Detected) (x : Task) (s : State),
    s.hours.contained = .consumed task unit core place addr :: rest → (∀ e ds, rest ≠ .record e :: ds) →
    s.sched.tasks.find task = some x → x.failed = false → x.gang.poisoned = false →
    (x.state = .committed → ∃ s' r, exec (.containment task) s = .next s' ∧
      s'.hours.contained = rest ∧
      s'.hours.log.find (s.hours.loghead % 256) = some r ∧ r.extractLsb' 0 8 = 3 ∧ r.extractLsb' 192 8 = 4 ∧
      ∀ p ∈ x.teams, ∀ m, s.team p.1 p.2 = some m → m.state = .running → ∃ m', s'.team p.1 p.2 = some m' ∧ m'.state = .stopped 0 0 0 s.tick) ∧
    (x.state = .opened → (∃ p ∈ x.teams, (s.team p.1 p.2).isSome = true) → ∃ s' x' r, exec (.containment task) s = .next s' ∧
      s'.hours.contained = rest ∧ s'.sched.tasks.find task = some x' ∧ x'.state = .discarding true ∧ x'.gang.poisoned = true ∧
      s'.hours.log.find (s.hours.loghead % 256) = some r ∧ r.extractLsb' 0 8 = 3 ∧ r.extractLsb' 192 8 = 3)) ∧
  (∀ (kind idx : Nat) (s : State), s.mayFence kind idx = true → let f := s.hours.fenced
    ∃ s', exec (.unitFence kind idx) s = .next s' ∧ s.hours.gen < s'.hours.gen ∧ (kind ≠ 4 → s'.hours.gen = s.hours.gen + 2) ∧
      match kind with
      | 0 => s'.hours.fenced = { f with cores := f.cores ++ [idx] }
      | 1 => s'.hours.fenced = { f with banks := f.banks ++ [(idx / 512, idx % 512)] }
      | 2 => s'.hours.fenced = { f with slices := f.slices ++ [idx] }
      | 3 => s'.hours.fenced = { f with channels := f.channels ++ [idx] }
      | _ => s'.hours.fenced = { f with lanes := f.lanes ++ [idx] } ∨
          s'.hours.fenced = { f with lanes := f.lanes ++ [idx], ports := f.ports ++ [idx / 1024] }) ∧
  (∀ (link : Nat) (s : State), ∃ s', exec (.linkFlitRetry link) s = .next s' ∧ SameMemory s s' ∧
    Table.get 0 s'.hours.telemetry 0x180 = min (Table.get 0 s.hours.telemetry 0x180 + 1) (2 ^ 64 - 1)) ∧
  (∀ (s : State), (s.sched.standby = false → ∃ s', exec .schedulerTakeover s = .next s' ∧ SameMemory s s' ∧
      s'.sched = { s.sched with standby := true, faults := s.sched.faults.map (fun (f : PageFault) => { f with begun := none }) }) ∧
    (s.sched.standby = true → exec .schedulerTakeover s = .next { s with sched := { s.sched with stopped := true } })) ∧
  (∀ (die : Nat) (s : State), die < 4 → (s.die die).state = .online → ∃ s', exec (.dieFault die) s = .next s' ∧
    (s'.die die).state = .fencing ∧ (s'.die die).fences = min ((s.die die).fences + 1) 65535 ∧ s'.hours.gen = s.hours.gen + 2) ∧
  (∀ (die : Nat) (s : State), die < 4 → (s.die die).state = .fencing → ∃ s', exec (.dieFault die) s = .next s' ∧
    (s'.die die).state = .testing ∧ (s'.die die).counts = [] ∧ (s'.die die).locks = []) ∧
  (∀ (die : Nat) (pass : Bool) (s : State), (s.die die).state = .testing → ∃ s', exec (.dieTestComplete die pass) s = .next s' ∧
    (s'.die die).state = (if pass then .online else .retired) ∧ s'.hours.gen = if pass then s.hours.gen + 2 else s.hours.gen) ∧
  (∀ (die : Nat) (s : State), (s.die die).state = .retired →
    exec (.dieReadmit die) s = .next (s.setDie die { s.die die with state := .testing }))

/-- Resets, power and cooling (R410 to R412). A reset leaves no context, no work and no key, and keeps the units' fences; P1 is entered when nothing is
in progress and ends with work; a request of P0 ends P2 and P3; P2 needs no bound team and P3 no live context; POWERCAP takes 1,000 to 2,800 W; a die's clock follows its
temperature by one step, and 115 degrees end in P3. -/
def Obligations.PowerSteps : Prop :=
  (∀ (i : Instr) (s : State), (i = .coldReset ∨ i = .warmReset) → ∃ s', exec i s = .next s' ∧ s'.ctxs = [] ∧ s'.cores = [] ∧ s'.dies = [] ∧
    s'.sched = Sched.reset ∧ s'.host = HostSide.reset ∧ s'.turn = none ∧ s'.keystone.shared = [] ∧ s'.keystone.attest = s.keystone.attest + 1 ∧
    s'.keystone.staged = none ∧ s'.hours.fenced = s.hours.fenced ∧ s'.hours.power = .p0) ∧
  (∀ (session : Nat) (s : State), (s.host.sessions.find session).isSome = true →
    (∃ s', exec (.powerStateRequest session 0) s = .next s' ∧ s'.hours.power = .p0 ∧ SameMemory s s' ∧
      (s.hours.power ≠ .p3 → s' = { s with hours := { s.hours with power := .p0, powerIgnored := false } })) ∧
    (s.teamBound = false → s.hours.power ≠ .p3 →
      exec (.powerStateRequest session 2) s = .next { s with hours := { s.hours with power := .p2, powerIgnored := false } }) ∧
    (s.teamBound = true → s.hours.power ≠ .p3 →
      exec (.powerStateRequest session 2) s = .next { s with hours := { s.hours with powerIgnored := true } }) ∧
    ((∀ e ∈ s.ctxs, e.2.state ≠ .live) → ∃ s', exec (.powerStateRequest session 3) s = .next s' ∧ s'.hours.power = .p3 ∧ s'.ctxs = [] ∧
      s'.cores = [] ∧ s'.keystone = s.keystone ∧ s'.host.sessions = s.host.sessions) ∧
    ((∃ e ∈ s.ctxs, e.2.state = .live) →
      exec (.powerStateRequest session 3) s = .next { s with hours := { s.hours with powerIgnored := true } }) ∧
    (∀ v, 1000 ≤ v → v ≤ 2800 → exec (.powercap session v) s = .next { s with hours := { s.hours with powercap := v } }) ∧
    (∀ v, (v < 1000 ∨ 2800 < v) → exec (.powercap session v) s = .next s)) ∧
  (∀ (s : State), s.hours.power = .p0 → s.teamBound = false → s.commandInFlight = false →
    exec .p1Entry s = .next { s with hours := { s.hours with power := .p1 } }) ∧
  (∀ (s : State), s.hours.power = .p1 → exec .p1Exit s = .next { s with hours := { s.hours with power := .p0 } }) ∧
  (∀ (die temp : Nat) (s : State), die < 4 → exec (.thermalStep die temp) s = .next (s.setDie die { s.die die with
    temp := temp, clock := if 1000 ≤ temp then max 2000 ((s.die die).clock - 250) else if temp < 950 then min 4000 ((s.die die).clock + 250)
      else (s.die die).clock })) ∧
  (∀ (die : Nat) (s : State), die < 4 → 1150 ≤ (s.die die).temp → ∃ s', exec .thermalShutdown s = .next s' ∧ s'.hours.power = .p3 ∧
    s'.ctxs = [] ∧ s'.cores = [] ∧ s'.turn = none)

end

namespace Sys2Proof.Machine


/-! ### Reset, decoding and the step (R22, R55 to R64, R217, R299, R309, R328, R397, R410, R411) -/

end Sys2Proof.Machine

section
open Sys2Proof Sys2Proof.Machine

/-- After reset and bring-up (R410): STATUS bit 0 reads 1, the power state is P0 and every context is free, with no region entry, no key and no work;
the scheduler's parameters and every queue entry, window and peer entry read their reset values (R217, R299, R309, R328, R338, R343, R351, R355,
R358), every die is Online with no fence at 4.0 GHz (R3, R397), and %cycles reads 0. That every byte of memory reads 0 is the model's choice (log 4). -/
def Obligations.Reset : Prop :=
  let s := State.reset
  s.hours.status.testBit 0 = true ∧ s.hours.power = .p0 ∧
  (∀ c, (s.ctx c).state = .free ∧ (s.ctx c).value = 0 ∧ (s.ctx c).key = none ∧ ∀ i, (s.region c i).value = 0) ∧
  (∀ c, s.coreCycles c = 0 ∧ (∀ r, s.team c r = none ∧ s.bindRec c r = 0) ∧ (s.core c).hod.q0 = [] ∧ (∀ k, s.cmd c k = none) ∧
    s.regValue 0 (.hodQ c 0) = 1 ∧ ∀ q, 1 ≤ q → s.regValue 0 (.hodQ c q) = 0) ∧
  (∀ d, (s.die d).state = .online ∧ (s.die d).fences = 0 ∧ (s.die d).clock = 4000 ∧ (∀ k, (s.die d).l2.find k = none) ∧
    (∀ k, (s.die d).windows.find k = none) ∧ ∀ k, (s.die d).locks.find k = none) ∧
  (List.range 8).map s.sched.param = [0x00010000, 1000, 100, 1, 0, 10, 1000, 0] ∧
  (∀ q, s.regValue 0 (.launchQ q) = 0 ∧ s.regValue 0 (.window q) = 0 ∧ s.regValue 0 (.sendQ q) = 1000 * 2 ^ 64 ∧ s.regValue 0 (.recvQ q) = 0) ∧
  (∀ c j, s.regValue 0 (.peer c j) = 0) ∧ s.regValue 0 .box = 0 ∧ s.regValue 0 .keyBox = 0 ∧
  s.keystone.shared = [] ∧ s.keystone.staged = none ∧ s.hours.loghead = 0 ∧ s.hours.poison = [] ∧ s.sched.tasks = [] ∧ s.sched.launches = [] ∧
  s.memoriesOk = true ∧ ∀ a, s.far.read a = 0

/-- Words written out from the encoding tables decode to the instructions they stand for: one of every format (R56 to R58), and words that R60 gives
to no instruction. -/
def Obligations.DecodeWords : Prop :=
  decodeWords 0x186040C1 0 = .ok (.iadd 6 2 3 1) ∧ decodeWords 0x28307FFF 0 = .ok (.addi 3 3 0x1FFF) ∧
  decodeWords 0x48412345 0 = .ok (.lui 4 0x12345) ∧ decodeWords 0x44306000 0 = .ok (.cmpi 4 3 3 0) ∧
  decodeWords 0x0FFFFFC0 0 = .ok (.trl 127 127 127 0) ∧ decodeWords 0xD8100005 0 = .ok (.call 0 0 5) ∧
  decodeWords 0x98504032 0 = .ok (.lds 5 2 0 3 2) ∧ decodeWords 0xB8608124 0 = .ok (.st 6 4 2 2 1 0) ∧
  decodeWords 0x79000108 0xE8000554 = .ok (.mma 16 0 4 2 0 0 0 0 1 5 5) ∧ decodeWords 0xE0000002 0 = .ok .exit ∧
  decodeWords 0xC810A104 0 = .ok (.bwait 1 5 0 4) ∧ decodeWords 0x79000108 0 = .illegal 1 ∧ decodeWords 0 0 = .illegal 0 ∧
  decodeWords 0xE8000000 0 = .illegal 0 ∧ decodeWords 0xE000000D 0 = .illegal 0 ∧ decodeWords 0xE0000042 0 = .illegal 1

/-- Decode and encode agree: for every well-formed instruction the decoder reads its words back, with every field at every value, alone and after every
prefix that may stand before it (R56 to R58, R72 to R74). -/
def Obligations.EncodeThenDecode : Prop :=
  ∀ i : Instr, i.wf = true →
    let w := fun (k : Nat) => (encode i).getD k 0
    (encode i).length = i.words ∧ decodeWords (w 0) (w 1) = .ok i ∧ decodeFetch (w 0) (w 1) 0 = .ok ⟨none, i, i.words⟩ ∧
    ∀ p : Pfx, p.fieldsOk = true → p.fits (fld (w 0) 27 5).toNat = true →
      decodeFetch (encodePfx p) (w 0) (w 1) = .ok ⟨some p, i, 1 + i.words⟩

/-- Every word that decodes has one meaning and drops no bit: what the decoder accepts is a well-formed instruction whose encoding is the words that were
read. -/
def Obligations.DecodeThenEncode : Prop :=
  ∀ (w v : IWord) (i : Instr), decodeWords w v = .ok i → i.wf = true ∧ encode i = if i.isPair then [w, v] else [w]

/-- The state in which the cores take a step: nothing else is coming, or their own next step is what comes, after the time that passes before
it (log 1). -/
def CoresAct (s s1 : State) : Prop :=
  (s.coming = [] ∧ s1 = { s with tick := s.tick + 1 }) ∨
  ∃ (c : Coming) (rest : List Coming), s.coming = c :: rest ∧ c.ev = none ∧
    s1 = { s with tick := s.tick + 1, coming := rest, ns := s.ns + c.ns, cycles := s.cycles + c.cycles }

/-- A step runs the decoded instruction (R9, R55, R58, R60 to R64). While a turn is in progress and the cores act, its slot first is free (R124); an issue
set that awaits a result of its own is held (R71). Then the words at the PC of its lanes, fetched through the pinned pages, decide: code bound, run entry
and illegal words trap in the order of R61, a poisoned word is consumed (R389, R390), and a valid instruction is executed in that turn. With no turn the
next slot takes one, and a step of another agent acts where it comes, after which the host's side goes on (the model's order, log 1). -/
def Obligations.StepRunsDecoded : Prop :=
  (∀ (s s1 : State) (t : Turn) (m : Team) (g : Group) (l : Nat) (ls : List Nat) (th : Thread) (w : Nat → IWord),
    CoresAct s s1 → s.turn = some t → s.team t.core t.tr = some m → m.groups[t.grp]? = some g → t.lanes = l :: ls →
    g.threads[l]? = some th →
    let s2 := s1.beginIssue t.core g.slot
    let pc := th.pc.toNat
    let fresh := t.lanes.filter (fun x => ((g.threads[x]?).map (·.unchecked)).getD false)
    let traps := fun (code detail : Nat) (lanes : List Nat) (addr : Nat) =>
      takeTrap s2 { t with ipc := pc } code 0 detail lanes (BitVec.ofNat 64 addr) (BitVec.ofNat 64 pc)
    let last := pc + 4 * wordsNeeded (w 0) (w 1) - 1
    (turnHolds t g = true → step s = stall s1 t.core) ∧
    (turnHolds t g = false →
      (inCode m.env pc = false → step s = traps 4 0 t.lanes pc) ∧
      (inCode m.env pc = true → (∀ k, k < 4 → if inCode m.env (pc + 4 * k) then codeWord s2 m (pc + 4 * k) = some (w k) else w k = 0) →
        (pc % 4 = 0 → inCode m.env last = false → step s = traps 4 0 t.lanes pc) ∧
        (pc % 4 ≠ 0 ∨ inCode m.env last = true →
          (∀ x, fresh ≠ [] → targetPoison s2 m pc = some x → step s = .next (s2.consumePoison m.ids.task 7 t.core x (pc - 4))) ∧
          (∀ c, fresh ≠ [] → targetPoison s2 m pc = none → targetTrap s2 m pc = some c → step s = traps c 0 fresh pc) ∧
          (fresh = [] ∨ targetPoison s2 m pc = none ∧ targetTrap s2 m pc = none →
            let poisoned := fun (k : Nat) => codePoison s2 m.env (pc + 4 * k)
            (∀ k x, k < wordsNeeded (w 0) (w 1) → (∀ j, j < k → poisoned j = none) → poisoned k = some x →
              step s = .next (s2.consumePoison m.ids.task 7 t.core x pc)) ∧
            ((∀ k, k < wordsNeeded (w 0) (w 1) → poisoned k = none) →
              (∀ d, decodeFetch (w 0) (w 1) (w 2) = .error d → step s = traps 1 d t.lanes 0) ∧
              (∀ f, decodeFetch (w 0) (w 1) (w 2) = .ok f → f.words = wordsNeeded (w 0) (w 1) ∧
                step s = exec f.instr { s2 with turn := some { t with
                  pfx := f.pfx, ipc := pc, len := 4 * f.words, closes := inCode m.env (pc + 4 * f.words) && isTrailer (w f.words) } }))))))) ∧
  (∀ (s s1 : State), CoresAct s s1 → s.turn = none →
    step s = exec (.issueTurn (s.rotor / 4 % 192) (s.rotor % 4)) { s1 with rotor := (s.rotor + 1) % 768 }) ∧
  (∀ (s s' : State) (c : Coming) (rest : List Coming) (ev : Instr), s.coming = c :: rest → c.ev = some ev → ev.isEvent = true →
    exec ev { s with tick := s.tick + 1, coming := rest, ns := s.ns + c.ns, cycles := s.cycles + c.cycles } = .next s' → step s = .next s'.settle)

/-- No instruction stops the package: every step of another agent answers a next state from every state, so does every instruction of an issue set
(R9), and a step of the package answers one unless the page of the word to fetch is not among its team's pinned pages, which R305 excludes. Only a
step moves the count of steps and the list of what is coming (the model's own fields, log 1). -/
def Obligations.EveryInstructionAnswers : Prop :=
  (∀ (e : Instr) (s : State), e.isEvent = true → ∃ s', exec e s = .next s' ∧ s'.tick = s.tick ∧ s'.coming = s.coming) ∧
  (∀ (i : Instr) (s : State) (t : Turn) (m : Team) (g : Group), i.isEvent = false → s.turn = some t → s.team t.core t.tr = some m →
    m.groups[t.grp]? = some g → ∃ s', exec i s = .next s' ∧ s'.tick = s.tick ∧ s'.coming = s.coming) ∧
  (∀ (s : State), (∃ s', step s = .next s' ∧ s'.tick = s.tick + 1 ∧ s'.coming = s.coming.drop 1) ∨ step s = .fault .codePageAbsent)

/-- Device memory keeps its canonical form in every step of the package, from every state. -/
def Obligations.DeviceMemoryCanonical : Prop := ∀ s s' : State, s.far.wf = true → step s = .next s' → s'.far.wf = true

/-- No instruction of a core writes a constant store ("threads cannot write", R159), a key (R404, R405), or what its context holds: state, owner, page-table
root, cores, grants and pool (R328, R329). -/
def Obligations.ThreadsCannotWrite : Prop :=
  ∀ (i : Instr) (s s' : State), i.wf = true → exec i s = .next s' →
    (∀ c a, (s'.core c).const.read a = (s.core c).const.read a) ∧ s'.keystone = s.keystone ∧
    ∀ c, (s'.ctx c).state = (s.ctx c).state ∧ (s'.ctx c).owner = (s.ctx c).owner ∧ (s'.ctx c).ptroot = (s.ctx c).ptroot ∧
      (s'.ctx c).cores = (s.ctx c).cores ∧ (s'.ctx c).grant = (s.ctx c).grant ∧ (s'.ctx c).poolBase = (s.ctx c).poolBase ∧
      (s'.ctx c).poolLen = (s.ctx c).poolLen ∧ (s'.ctx c).key = (s.ctx c).key ∧
      (s'.ctx c).keyNo = (s.ctx c).keyNo

end

namespace Sys2Proof.Machine


/-! ### Claims said together -/

end Sys2Proof.Machine

/-- Integer arithmetic at every width (R54, R86, R93, R108): signed and natural sums, products, extrema and shifts, and division with its corner values. -/
def Obligations.IntegerArithmetic : Prop := Sys2Proof.Claims.IntegerArithmetic ∧ Sys2Proof.Claims.NaturalArithmetic ∧ Sys2Proof.Claims.IntegerDivision

/-- Forms on one source, on whole words and with an immediate (R92 to R95). -/
def Obligations.WordForms : Prop := Sys2Proof.Claims.UnaryIntegers ∧ Sys2Proof.Claims.WordOperations ∧ Sys2Proof.Claims.ImmediateForms

/-- Selects, compares and predicate logic (R87, R93, R94). -/
def Obligations.SelectCompareAndPredicates : Prop := Sys2Proof.Claims.Select ∧ Sys2Proof.Claims.IntegerCompare ∧ Sys2Proof.Claims.PredicateOperations

/-- Float arithmetic, signs, extrema and compares (R43, R96 to R99). -/
def Obligations.FloatArithmetic : Prop := Sys2Proof.Claims.FloatArithmetic ∧ Sys2Proof.Claims.FloatSigns ∧ Sys2Proof.Claims.FloatCompare

/-- Conversions between the number formats, and the generator (R43, R101, R102, R104). -/
def Obligations.ConversionsAndGenerator : Prop := Sys2Proof.Claims.Conversions ∧ Sys2Proof.Claims.Generator

/-- Division, root and the special functions (R105 to R107). -/
def Obligations.SpecialFunctions : Prop := Sys2Proof.Claims.DivideAndRoot ∧ Sys2Proof.Claims.SpecialFunctions

/-- Exchange between lanes, reductions and scans (R48, R110 to R115). -/
def Obligations.LanesTogether : Prop := Sys2Proof.Claims.LaneExchange ∧ Sys2Proof.Claims.ReduceAndScan

/-- Traps that the words and the windows decide, in their order, and each of their causes (R16, R28, R59 to R62). -/
def Obligations.WordTraps : Prop := Sys2Proof.Claims.WordTraps ∧ Sys2Proof.Claims.WordTrapCauses

/-- What moves a run on or ends it: NOP, YIELD, WIN, the trailer and EXIT (R16, R30, R62, R65, R119 to R121, R187). -/
def Obligations.RunsAndExit : Prop := Sys2Proof.Claims.NopYieldWin ∧ Sys2Proof.Claims.Trailer ∧ Sys2Proof.Claims.ThreadExit

/-- Branches, calls, returns and register jumps (R31, R64, R116, R118). -/
def Obligations.Transfers : Prop := Sys2Proof.Claims.BranchAndCall ∧ Sys2Proof.Claims.RegisterJumps

/-- Software traps, what an unhandled trap stops, and the return from a trap (R28, R30, R31, R53, R122). -/
def Obligations.TrapsAndReturn : Prop := Sys2Proof.Claims.SoftwareTraps ∧ Sys2Proof.Claims.UnhandledTrap ∧ Sys2Proof.Claims.TrapReturn

/-- Reads and writes of the special registers (R22, R24, R25, R31, R123); an SWR of %trappc outside handler mode is the model's choice (log 14). -/
def Obligations.SpecialRegisters : Prop := Sys2Proof.Claims.ReadSpecial ∧ Sys2Proof.Claims.WriteSpecial ∧ Sys2Proof.Claims.WriteTrapPc

/-- Near atomics and what they combine (R49, R166, R167). -/
def Obligations.Atomics : Prop := Sys2Proof.Claims.ScratchAtomic ∧ Sys2Proof.Claims.IntegerCombine

/-- The order of the probe's checks and what a failed probe does (R26, R154 to R156). -/
def Obligations.NearProbe : Prop := Sys2Proof.Claims.ProbeOrder ∧ Sys2Proof.Claims.NearFaults

/-- The barrier instructions, that an arrival waits for its threads' near accesses, and what reads of a barrier give (R169, R174 to R177, R189, R248). -/
def Obligations.Barriers : Prop := Sys2Proof.Claims.BarrierInstructions ∧ Sys2Proof.Claims.ArrivalsWait ∧ Sys2Proof.Claims.BarrierReads

/-- Stage rings: their setting up and their instructions (R181 to R183). -/
def Obligations.StageRings : Prop := Sys2Proof.Claims.RingInit ∧ Sys2Proof.Claims.RingInstructions

/-- Convergence registers (R184, R185). -/
def Obligations.Convergence : Prop := Sys2Proof.Claims.ConvergenceRegisters ∧ Sys2Proof.Claims.Sign

/-- Posting commands and continuation records (R189 to R191). -/
def Obligations.Posts : Prop := Sys2Proof.Claims.PostCommands ∧ Sys2Proof.Claims.PostRecords

/-- FREEZE, THAW and the queries (R191 to R193, R339). -/
def Obligations.FreezeThawAndQueries : Prop := Sys2Proof.Claims.FreezeAndThaw ∧ Sys2Proof.Claims.Queries

/-- A matrix operation's arrival, and MVT (R129, R130, R132, R133, R146 to R149, R156). -/
def Obligations.MatrixOperations : Prop := Sys2Proof.Claims.MatrixArrival ∧ Sys2Proof.Claims.MatrixVector

/-- Issue turns, late results, and the tile store's banks and the peer ports (R9 to R13, R67 to R71, R202, R205). -/
def Obligations.TurnsAndPorts : Prop := Sys2Proof.Claims.TurnsAndLandings ∧ Sys2Proof.Claims.BankSteps
end

