-- ==== Sys2Proof/Laws/Table.lean ====
section
/-!
SUPPORT. Table: what reading a table or a memory gives after a write, and that every operation keeps the canonical form.
-/

namespace Sys2Proof.Machine

/-! ### Reading after a write -/

variable {α : Type}

@[simp] theorem Table.find_insert_same (t : Table α) (q : Nat) (x : α) : (t.insert q x).find q = some x := by
  induction t with
  | nil => simp [Table.insert, Table.find]
  | cons e r ih =>
    obtain ⟨k, v⟩ := e
    simp only [Table.insert]
    split
    · simp [Table.find]
    · split
      · simp [Table.find]
      · simp [Table.find, *]

theorem Table.find_insert_of_ne (t : Table α) {p q : Nat} (x : α) (h : p ≠ q) : (t.insert q x).find p = t.find p := by
  induction t with
  | nil => simp [Table.insert, Table.find, h]
  | cons e r ih =>
    obtain ⟨k, v⟩ := e
    simp only [Table.insert]
    split
    · simp [Table.find, h]
    · split
      · subst k; simp [Table.find, h]
      · simp only [Table.find, ih]

@[simp] theorem Table.find_erase_same (t : Table α) (q : Nat) : (t.erase q).find q = none := by
  induction t with
  | nil => rfl
  | cons e r ih =>
    obtain ⟨k, v⟩ := e
    simp only [Table.erase] at ih ⊢
    by_cases hk : k = q
    · simp [hk, ih]
    · simp [hk, Table.find, Ne.symm hk, ih]

theorem Table.find_erase_of_ne (t : Table α) {p q : Nat} (h : p ≠ q) : (t.erase q).find p = t.find p := by
  induction t with
  | nil => rfl
  | cons e r ih =>
    obtain ⟨k, v⟩ := e
    simp only [Table.erase] at ih ⊢
    by_cases hk : k = q
    · subst k; simp [Table.find, h, ih]
    · simp [hk, Table.find, ih]

@[simp] theorem Table.get_insert_same (d : α) (t : Table α) (q : Nat) (x : α) : Table.get d (t.insert q x) q = x := by
  simp [Table.get]

theorem Table.get_insert_of_ne (d : α) (t : Table α) {p q : Nat} (x : α) (h : p ≠ q) :
    Table.get d (t.insert q x) p = Table.get d t p := by
  simp [Table.get, Table.find_insert_of_ne t x h]

@[simp] theorem Table.get_put_same [DecidableEq α] (d : α) (t : Table α) (q : Nat) (x : α) : Table.get d (Table.put d t q x) q = x := by
  unfold Table.put
  split
  · simp [Table.get, *]
  · simp

theorem Table.get_put_of_ne [DecidableEq α] (d : α) (t : Table α) {p q : Nat} (x : α) (h : p ≠ q) :
    Table.get d (Table.put d t q x) p = Table.get d t p := by
  unfold Table.put
  split
  · simp [Table.get, Table.find_erase_of_ne t h]
  · exact Table.get_insert_of_ne d t x h

/-! ### The canonical form -/

theorem Table.risingFrom_mono {t : Table α} {m n : Nat} (h : m ≤ n) (ht : t.risingFrom n = true) : t.risingFrom m = true := by
  cases t with
  | nil => rfl
  | cons e r =>
    simp only [Table.risingFrom, Bool.and_eq_true, decide_eq_true_eq] at ht ⊢
    exact ⟨Nat.le_trans h ht.1, ht.2⟩

theorem Table.risingFrom_insert {t : Table α} {n q : Nat} (x : α) (hq : n ≤ q) (ht : t.risingFrom n = true) :
    (t.insert q x).risingFrom n = true := by
  induction t generalizing n with
  | nil => simp [Table.insert, Table.risingFrom, hq]
  | cons e r ih =>
    obtain ⟨k, v⟩ := e
    simp only [Table.risingFrom, Bool.and_eq_true, decide_eq_true_eq] at ht
    simp only [Table.insert]
    split
    · simp [Table.risingFrom, hq, ht.2]; omega
    · split
      · subst k; simp [Table.risingFrom, ht]
      · simp only [Table.risingFrom, Bool.and_eq_true, decide_eq_true_eq]
        exact ⟨ht.1, ih (by omega) ht.2⟩

theorem Table.risingFrom_filter {t : Table α} {n : Nat} (p : Nat × α → Bool) (ht : t.risingFrom n = true) :
    Table.risingFrom n (t.filter p) = true := by
  induction t generalizing n with
  | nil => rfl
  | cons e r ih =>
    obtain ⟨k, v⟩ := e
    simp only [Table.risingFrom, Bool.and_eq_true, decide_eq_true_eq] at ht
    simp only [List.filter]
    split
    · simp only [Table.risingFrom, Bool.and_eq_true, decide_eq_true_eq]
      exact ⟨ht.1, ih ht.2⟩
    · exact ih (Table.risingFrom_mono (by omega) ht.2)

theorem Table.mem_insert {t : Table α} {q : Nat} {x : α} {e : Nat × α} (h : e ∈ t.insert q x) : e = (q, x) ∨ e ∈ t := by
  induction t with
  | nil => simpa [Table.insert] using h
  | cons y r ih =>
    obtain ⟨k, v⟩ := y
    simp only [Table.insert] at h
    split at h
    · simpa using h
    · split at h
      · simp only [List.mem_cons] at h ⊢
        rcases h with h | h
        · exact .inl h
        · exact .inr (.inr h)
      · simp only [List.mem_cons] at h ⊢
        rcases h with h | h
        · exact .inr (.inl h)
        · rcases ih h with h | h
          · exact .inl h
          · exact .inr (.inr h)

theorem Table.wf_filter [DecidableEq α] {d : α} {t : Table α} (p : Nat × α → Bool) (ht : t.wf d = true) : Table.wf d (t.filter p) = true := by
  simp only [Table.wf, Bool.and_eq_true, List.all_eq_true] at ht ⊢
  exact ⟨Table.risingFrom_filter p ht.1, fun e he => ht.2 e (List.mem_of_mem_filter he)⟩

theorem Table.wf_put [DecidableEq α] {d : α} {t : Table α} (q : Nat) (x : α) (ht : t.wf d = true) : (Table.put d t q x).wf d = true := by
  unfold Table.put
  split
  · exact Table.wf_filter _ ht
  · simp only [Table.wf, Bool.and_eq_true, List.all_eq_true] at ht ⊢
    refine ⟨Table.risingFrom_insert x (Nat.zero_le q) ht.1, fun e he => ?_⟩
    rcases Table.mem_insert he with h | h
    · subst h; simpa using ‹_›
    · exact ht.2 e h

/-! ### Memories -/

@[simp] theorem Memory.read_write_same (m : Memory) (a : Nat) (b : Byte) : (m.write a b).read a = b := Table.get_put_same _ _ _ _

theorem Memory.read_write_of_ne (m : Memory) {a p : Nat} (b : Byte) (h : p ≠ a) : (m.write a b).read p = m.read p :=
  Table.get_put_of_ne _ _ _ h

theorem Memory.wf_write {m : Memory} (a : Nat) (b : Byte) (h : m.wf = true) : (m.write a b).wf = true := Table.wf_put a b h

theorem Memory.wf_writeLE {m : Memory} (a v n : Nat) (h : m.wf = true) : (m.writeLE a v n).wf = true := by
  induction n generalizing m a v with
  | zero => exact h
  | succ n ih => exact ih _ _ (Memory.wf_write _ _ h)

theorem Memory.wf_writeBytes {m : Memory} (a : Nat) (bs : List Byte) (h : m.wf = true) : (m.writeBytes a bs).wf = true := by
  induction bs generalizing m a with
  | nil => exact h
  | cons b r ih => exact ih _ (Memory.wf_write _ _ h)

theorem Memory.wf_forget {m : Memory} (a n : Nat) (h : m.wf = true) : (m.forget a n).wf = true := Table.wf_filter _ h

theorem Memory.wf_scramble {m : Memory} (f : Nat → Byte) (p : Nat → Bool) (h : m.wf = true) : (m.scramble f p).wf = true := by
  unfold Memory.scramble
  generalize m.filter (fun e => p e.1) = l
  induction l generalizing m with
  | nil => exact h
  | cons e l ih => exact ih (Memory.wf_write e.1 (f e.1) h)

theorem Memory.wf_filter {m : Memory} (p : Nat × Byte → Bool) (h : m.wf = true) : Memory.wf (List.filter p m) = true := Table.wf_filter _ h

theorem Memory.read_writeLE_of_lt (m : Memory) {a p v n : Nat} (h : p < a) : (m.writeLE a v n).read p = m.read p := by
  induction n generalizing m a v with
  | zero => rfl
  | succ n ih =>
    rw [Memory.writeLE, ih _ (by omega), Memory.read_write_of_ne _ _ (by omega)]

theorem Memory.read_writeLE_of_ge (m : Memory) {a p v n : Nat} (h : a + n ≤ p) : (m.writeLE a v n).read p = m.read p := by
  induction n generalizing m a v with
  | zero => rfl
  | succ n ih =>
    rw [Memory.writeLE, ih _ (by omega), Memory.read_write_of_ne _ _ (by omega)]

theorem Memory.readLE_lt (m : Memory) (a n : Nat) : m.readLE a n < 256 ^ n := by
  induction n generalizing a with
  | zero => simp [Memory.readLE]
  | succ n ih =>
    have hb := (m.read a).isLt
    have hr := ih (a + 1)
    simp only [Memory.readLE, Nat.pow_succ]
    omega

theorem Memory.readLE_writeLE_same (m : Memory) (a v n : Nat) : (m.writeLE a v n).readLE a n = v % 256 ^ n := by
  induction n generalizing m a v with
  | zero => simp [Memory.readLE, Nat.mod_one]
  | succ n ih =>
    rw [Memory.readLE, Memory.writeLE, ih, Memory.read_writeLE_of_lt _ (Nat.lt_succ_self a), Memory.read_write_same]
    rw [BitVec.toNat_ofNat, Nat.pow_succ (n := 256), Nat.mul_comm (256 ^ n) 256, Nat.mod_mul]

end Sys2Proof.Machine
end

