-- ==== Sys2Proof/Laws/State.lean ====
section
/-!
SUPPORT. State: one lemma for each field of the state and each update of it, and what reading a part of the package gives after an update
of a part.
-/

namespace Sys2Proof.Machine

/-! ### Fields that an update leaves alone -/

@[simp] theorem State.setCore_dies (s : State) (c : Nat) (x : Core) : (s.setCore c x).dies = s.dies := rfl
@[simp] theorem State.setCore_far (s : State) (c : Nat) (x : Core) : (s.setCore c x).far = s.far := rfl
@[simp] theorem State.setCore_farKeys (s : State) (c : Nat) (x : Core) : (s.setCore c x).farKeys = s.farKeys := rfl
@[simp] theorem State.setCore_codeOld (s : State) (c : Nat) (x : Core) : (s.setCore c x).codeOld = s.codeOld := rfl
@[simp] theorem State.setCore_releases (s : State) (c : Nat) (x : Core) : (s.setCore c x).releases = s.releases := rfl
@[simp] theorem State.setCore_sched (s : State) (c : Nat) (x : Core) : (s.setCore c x).sched = s.sched := rfl
@[simp] theorem State.setCore_ctxs (s : State) (c : Nat) (x : Core) : (s.setCore c x).ctxs = s.ctxs := rfl
@[simp] theorem State.setCore_box (s : State) (c : Nat) (x : Core) : (s.setCore c x).box = s.box := rfl
@[simp] theorem State.setCore_host (s : State) (c : Nat) (x : Core) : (s.setCore c x).host = s.host := rfl
@[simp] theorem State.setCore_keystone (s : State) (c : Nat) (x : Core) : (s.setCore c x).keystone = s.keystone := rfl
@[simp] theorem State.setCore_hours (s : State) (c : Nat) (x : Core) : (s.setCore c x).hours = s.hours := rfl
@[simp] theorem State.setCore_ns (s : State) (c : Nat) (x : Core) : (s.setCore c x).ns = s.ns := rfl
@[simp] theorem State.setCore_cycles (s : State) (c : Nat) (x : Core) : (s.setCore c x).cycles = s.cycles := rfl
@[simp] theorem State.setCore_coming (s : State) (c : Nat) (x : Core) : (s.setCore c x).coming = s.coming := rfl
@[simp] theorem State.setCore_tick (s : State) (c : Nat) (x : Core) : (s.setCore c x).tick = s.tick := rfl
@[simp] theorem State.setCore_turn (s : State) (c : Nat) (x : Core) : (s.setCore c x).turn = s.turn := rfl
@[simp] theorem State.setCore_parked (s : State) (c : Nat) (x : Core) : (s.setCore c x).parked = s.parked := rfl
@[simp] theorem State.setCore_rotor (s : State) (c : Nat) (x : Core) : (s.setCore c x).rotor = s.rotor := rfl
@[simp] theorem State.modCore_dies (s : State) (c : Nat) (f : Core → Core) : (s.modCore c f).dies = s.dies := rfl
@[simp] theorem State.modCore_far (s : State) (c : Nat) (f : Core → Core) : (s.modCore c f).far = s.far := rfl
@[simp] theorem State.modCore_farKeys (s : State) (c : Nat) (f : Core → Core) : (s.modCore c f).farKeys = s.farKeys := rfl
@[simp] theorem State.modCore_codeOld (s : State) (c : Nat) (f : Core → Core) : (s.modCore c f).codeOld = s.codeOld := rfl
@[simp] theorem State.modCore_releases (s : State) (c : Nat) (f : Core → Core) : (s.modCore c f).releases = s.releases := rfl
@[simp] theorem State.modCore_sched (s : State) (c : Nat) (f : Core → Core) : (s.modCore c f).sched = s.sched := rfl
@[simp] theorem State.modCore_ctxs (s : State) (c : Nat) (f : Core → Core) : (s.modCore c f).ctxs = s.ctxs := rfl
@[simp] theorem State.modCore_box (s : State) (c : Nat) (f : Core → Core) : (s.modCore c f).box = s.box := rfl
@[simp] theorem State.modCore_host (s : State) (c : Nat) (f : Core → Core) : (s.modCore c f).host = s.host := rfl
@[simp] theorem State.modCore_keystone (s : State) (c : Nat) (f : Core → Core) : (s.modCore c f).keystone = s.keystone := rfl
@[simp] theorem State.modCore_hours (s : State) (c : Nat) (f : Core → Core) : (s.modCore c f).hours = s.hours := rfl
@[simp] theorem State.modCore_ns (s : State) (c : Nat) (f : Core → Core) : (s.modCore c f).ns = s.ns := rfl
@[simp] theorem State.modCore_cycles (s : State) (c : Nat) (f : Core → Core) : (s.modCore c f).cycles = s.cycles := rfl
@[simp] theorem State.modCore_coming (s : State) (c : Nat) (f : Core → Core) : (s.modCore c f).coming = s.coming := rfl
@[simp] theorem State.modCore_tick (s : State) (c : Nat) (f : Core → Core) : (s.modCore c f).tick = s.tick := rfl
@[simp] theorem State.modCore_turn (s : State) (c : Nat) (f : Core → Core) : (s.modCore c f).turn = s.turn := rfl
@[simp] theorem State.modCore_parked (s : State) (c : Nat) (f : Core → Core) : (s.modCore c f).parked = s.parked := rfl
@[simp] theorem State.modCore_rotor (s : State) (c : Nat) (f : Core → Core) : (s.modCore c f).rotor = s.rotor := rfl
@[simp] theorem State.setTeam_dies (s : State) (c r : Nat) (x : Team) : (s.setTeam c r x).dies = s.dies := rfl
@[simp] theorem State.setTeam_far (s : State) (c r : Nat) (x : Team) : (s.setTeam c r x).far = s.far := rfl
@[simp] theorem State.setTeam_farKeys (s : State) (c r : Nat) (x : Team) : (s.setTeam c r x).farKeys = s.farKeys := rfl
@[simp] theorem State.setTeam_codeOld (s : State) (c r : Nat) (x : Team) : (s.setTeam c r x).codeOld = s.codeOld := rfl
@[simp] theorem State.setTeam_releases (s : State) (c r : Nat) (x : Team) : (s.setTeam c r x).releases = s.releases := rfl
@[simp] theorem State.setTeam_sched (s : State) (c r : Nat) (x : Team) : (s.setTeam c r x).sched = s.sched := rfl
@[simp] theorem State.setTeam_ctxs (s : State) (c r : Nat) (x : Team) : (s.setTeam c r x).ctxs = s.ctxs := rfl
@[simp] theorem State.setTeam_box (s : State) (c r : Nat) (x : Team) : (s.setTeam c r x).box = s.box := rfl
@[simp] theorem State.setTeam_host (s : State) (c r : Nat) (x : Team) : (s.setTeam c r x).host = s.host := rfl
@[simp] theorem State.setTeam_keystone (s : State) (c r : Nat) (x : Team) : (s.setTeam c r x).keystone = s.keystone := rfl
@[simp] theorem State.setTeam_hours (s : State) (c r : Nat) (x : Team) : (s.setTeam c r x).hours = s.hours := rfl
@[simp] theorem State.setTeam_ns (s : State) (c r : Nat) (x : Team) : (s.setTeam c r x).ns = s.ns := rfl
@[simp] theorem State.setTeam_cycles (s : State) (c r : Nat) (x : Team) : (s.setTeam c r x).cycles = s.cycles := rfl
@[simp] theorem State.setTeam_coming (s : State) (c r : Nat) (x : Team) : (s.setTeam c r x).coming = s.coming := rfl
@[simp] theorem State.setTeam_tick (s : State) (c r : Nat) (x : Team) : (s.setTeam c r x).tick = s.tick := rfl
@[simp] theorem State.setTeam_turn (s : State) (c r : Nat) (x : Team) : (s.setTeam c r x).turn = s.turn := rfl
@[simp] theorem State.setTeam_parked (s : State) (c r : Nat) (x : Team) : (s.setTeam c r x).parked = s.parked := rfl
@[simp] theorem State.setTeam_rotor (s : State) (c r : Nat) (x : Team) : (s.setTeam c r x).rotor = s.rotor := rfl
@[simp] theorem State.modHod_dies (s : State) (c : Nat) (f : Hod → Hod) : (s.modHod c f).dies = s.dies := rfl
@[simp] theorem State.modHod_far (s : State) (c : Nat) (f : Hod → Hod) : (s.modHod c f).far = s.far := rfl
@[simp] theorem State.modHod_farKeys (s : State) (c : Nat) (f : Hod → Hod) : (s.modHod c f).farKeys = s.farKeys := rfl
@[simp] theorem State.modHod_codeOld (s : State) (c : Nat) (f : Hod → Hod) : (s.modHod c f).codeOld = s.codeOld := rfl
@[simp] theorem State.modHod_releases (s : State) (c : Nat) (f : Hod → Hod) : (s.modHod c f).releases = s.releases := rfl
@[simp] theorem State.modHod_sched (s : State) (c : Nat) (f : Hod → Hod) : (s.modHod c f).sched = s.sched := rfl
@[simp] theorem State.modHod_ctxs (s : State) (c : Nat) (f : Hod → Hod) : (s.modHod c f).ctxs = s.ctxs := rfl
@[simp] theorem State.modHod_box (s : State) (c : Nat) (f : Hod → Hod) : (s.modHod c f).box = s.box := rfl
@[simp] theorem State.modHod_host (s : State) (c : Nat) (f : Hod → Hod) : (s.modHod c f).host = s.host := rfl
@[simp] theorem State.modHod_keystone (s : State) (c : Nat) (f : Hod → Hod) : (s.modHod c f).keystone = s.keystone := rfl
@[simp] theorem State.modHod_hours (s : State) (c : Nat) (f : Hod → Hod) : (s.modHod c f).hours = s.hours := rfl
@[simp] theorem State.modHod_ns (s : State) (c : Nat) (f : Hod → Hod) : (s.modHod c f).ns = s.ns := rfl
@[simp] theorem State.modHod_cycles (s : State) (c : Nat) (f : Hod → Hod) : (s.modHod c f).cycles = s.cycles := rfl
@[simp] theorem State.modHod_coming (s : State) (c : Nat) (f : Hod → Hod) : (s.modHod c f).coming = s.coming := rfl
@[simp] theorem State.modHod_tick (s : State) (c : Nat) (f : Hod → Hod) : (s.modHod c f).tick = s.tick := rfl
@[simp] theorem State.modHod_turn (s : State) (c : Nat) (f : Hod → Hod) : (s.modHod c f).turn = s.turn := rfl
@[simp] theorem State.modHod_parked (s : State) (c : Nat) (f : Hod → Hod) : (s.modHod c f).parked = s.parked := rfl
@[simp] theorem State.modHod_rotor (s : State) (c : Nat) (f : Hod → Hod) : (s.modHod c f).rotor = s.rotor := rfl
@[simp] theorem State.spend_dies (s : State) (c n : Nat) : (s.spend c n).dies = s.dies := rfl
@[simp] theorem State.spend_far (s : State) (c n : Nat) : (s.spend c n).far = s.far := rfl
@[simp] theorem State.spend_farKeys (s : State) (c n : Nat) : (s.spend c n).farKeys = s.farKeys := rfl
@[simp] theorem State.spend_codeOld (s : State) (c n : Nat) : (s.spend c n).codeOld = s.codeOld := rfl
@[simp] theorem State.spend_releases (s : State) (c n : Nat) : (s.spend c n).releases = s.releases := rfl
@[simp] theorem State.spend_sched (s : State) (c n : Nat) : (s.spend c n).sched = s.sched := rfl
@[simp] theorem State.spend_ctxs (s : State) (c n : Nat) : (s.spend c n).ctxs = s.ctxs := rfl
@[simp] theorem State.spend_box (s : State) (c n : Nat) : (s.spend c n).box = s.box := rfl
@[simp] theorem State.spend_host (s : State) (c n : Nat) : (s.spend c n).host = s.host := rfl
@[simp] theorem State.spend_keystone (s : State) (c n : Nat) : (s.spend c n).keystone = s.keystone := rfl
@[simp] theorem State.spend_hours (s : State) (c n : Nat) : (s.spend c n).hours = s.hours := rfl
@[simp] theorem State.spend_ns (s : State) (c n : Nat) : (s.spend c n).ns = s.ns := rfl
@[simp] theorem State.spend_cycles (s : State) (c n : Nat) : (s.spend c n).cycles = s.cycles := rfl
@[simp] theorem State.spend_coming (s : State) (c n : Nat) : (s.spend c n).coming = s.coming := rfl
@[simp] theorem State.spend_tick (s : State) (c n : Nat) : (s.spend c n).tick = s.tick := rfl
@[simp] theorem State.spend_turn (s : State) (c n : Nat) : (s.spend c n).turn = s.turn := rfl
@[simp] theorem State.spend_parked (s : State) (c n : Nat) : (s.spend c n).parked = s.parked := rfl
@[simp] theorem State.spend_rotor (s : State) (c n : Nat) : (s.spend c n).rotor = s.rotor := rfl
@[simp] theorem State.occupy_dies (s : State) (t : Turn) (n : Nat) : (s.occupy t n).dies = s.dies := rfl
@[simp] theorem State.occupy_far (s : State) (t : Turn) (n : Nat) : (s.occupy t n).far = s.far := rfl
@[simp] theorem State.occupy_farKeys (s : State) (t : Turn) (n : Nat) : (s.occupy t n).farKeys = s.farKeys := rfl
@[simp] theorem State.occupy_codeOld (s : State) (t : Turn) (n : Nat) : (s.occupy t n).codeOld = s.codeOld := rfl
@[simp] theorem State.occupy_releases (s : State) (t : Turn) (n : Nat) : (s.occupy t n).releases = s.releases := rfl
@[simp] theorem State.occupy_sched (s : State) (t : Turn) (n : Nat) : (s.occupy t n).sched = s.sched := rfl
@[simp] theorem State.occupy_ctxs (s : State) (t : Turn) (n : Nat) : (s.occupy t n).ctxs = s.ctxs := rfl
@[simp] theorem State.occupy_box (s : State) (t : Turn) (n : Nat) : (s.occupy t n).box = s.box := rfl
@[simp] theorem State.occupy_host (s : State) (t : Turn) (n : Nat) : (s.occupy t n).host = s.host := rfl
@[simp] theorem State.occupy_keystone (s : State) (t : Turn) (n : Nat) : (s.occupy t n).keystone = s.keystone := rfl
@[simp] theorem State.occupy_hours (s : State) (t : Turn) (n : Nat) : (s.occupy t n).hours = s.hours := rfl
@[simp] theorem State.occupy_ns (s : State) (t : Turn) (n : Nat) : (s.occupy t n).ns = s.ns := rfl
@[simp] theorem State.occupy_cycles (s : State) (t : Turn) (n : Nat) : (s.occupy t n).cycles = s.cycles := rfl
@[simp] theorem State.occupy_coming (s : State) (t : Turn) (n : Nat) : (s.occupy t n).coming = s.coming := rfl
@[simp] theorem State.occupy_tick (s : State) (t : Turn) (n : Nat) : (s.occupy t n).tick = s.tick := rfl
@[simp] theorem State.occupy_turn (s : State) (t : Turn) (n : Nat) : (s.occupy t n).turn = s.turn := rfl
@[simp] theorem State.occupy_parked (s : State) (t : Turn) (n : Nat) : (s.occupy t n).parked = s.parked := rfl
@[simp] theorem State.occupy_rotor (s : State) (t : Turn) (n : Nat) : (s.occupy t n).rotor = s.rotor := rfl
@[simp] theorem State.beginIssue_dies (s : State) (c k : Nat) : (s.beginIssue c k).dies = s.dies := rfl
@[simp] theorem State.beginIssue_far (s : State) (c k : Nat) : (s.beginIssue c k).far = s.far := rfl
@[simp] theorem State.beginIssue_farKeys (s : State) (c k : Nat) : (s.beginIssue c k).farKeys = s.farKeys := rfl
@[simp] theorem State.beginIssue_codeOld (s : State) (c k : Nat) : (s.beginIssue c k).codeOld = s.codeOld := rfl
@[simp] theorem State.beginIssue_releases (s : State) (c k : Nat) : (s.beginIssue c k).releases = s.releases := rfl
@[simp] theorem State.beginIssue_sched (s : State) (c k : Nat) : (s.beginIssue c k).sched = s.sched := rfl
@[simp] theorem State.beginIssue_ctxs (s : State) (c k : Nat) : (s.beginIssue c k).ctxs = s.ctxs := rfl
@[simp] theorem State.beginIssue_box (s : State) (c k : Nat) : (s.beginIssue c k).box = s.box := rfl
@[simp] theorem State.beginIssue_host (s : State) (c k : Nat) : (s.beginIssue c k).host = s.host := rfl
@[simp] theorem State.beginIssue_keystone (s : State) (c k : Nat) : (s.beginIssue c k).keystone = s.keystone := rfl
@[simp] theorem State.beginIssue_hours (s : State) (c k : Nat) : (s.beginIssue c k).hours = s.hours := rfl
@[simp] theorem State.beginIssue_ns (s : State) (c k : Nat) : (s.beginIssue c k).ns = s.ns := rfl
@[simp] theorem State.beginIssue_cycles (s : State) (c k : Nat) : (s.beginIssue c k).cycles = s.cycles := rfl
@[simp] theorem State.beginIssue_coming (s : State) (c k : Nat) : (s.beginIssue c k).coming = s.coming := rfl
@[simp] theorem State.beginIssue_tick (s : State) (c k : Nat) : (s.beginIssue c k).tick = s.tick := rfl
@[simp] theorem State.beginIssue_turn (s : State) (c k : Nat) : (s.beginIssue c k).turn = s.turn := rfl
@[simp] theorem State.beginIssue_parked (s : State) (c k : Nat) : (s.beginIssue c k).parked = s.parked := rfl
@[simp] theorem State.beginIssue_rotor (s : State) (c k : Nat) : (s.beginIssue c k).rotor = s.rotor := rfl
@[simp] theorem State.setDie_cores (s : State) (d : Nat) (x : Die) : (s.setDie d x).cores = s.cores := rfl
@[simp] theorem State.setDie_far (s : State) (d : Nat) (x : Die) : (s.setDie d x).far = s.far := rfl
@[simp] theorem State.setDie_farKeys (s : State) (d : Nat) (x : Die) : (s.setDie d x).farKeys = s.farKeys := rfl
@[simp] theorem State.setDie_codeOld (s : State) (d : Nat) (x : Die) : (s.setDie d x).codeOld = s.codeOld := rfl
@[simp] theorem State.setDie_releases (s : State) (d : Nat) (x : Die) : (s.setDie d x).releases = s.releases := rfl
@[simp] theorem State.setDie_sched (s : State) (d : Nat) (x : Die) : (s.setDie d x).sched = s.sched := rfl
@[simp] theorem State.setDie_ctxs (s : State) (d : Nat) (x : Die) : (s.setDie d x).ctxs = s.ctxs := rfl
@[simp] theorem State.setDie_box (s : State) (d : Nat) (x : Die) : (s.setDie d x).box = s.box := rfl
@[simp] theorem State.setDie_host (s : State) (d : Nat) (x : Die) : (s.setDie d x).host = s.host := rfl
@[simp] theorem State.setDie_keystone (s : State) (d : Nat) (x : Die) : (s.setDie d x).keystone = s.keystone := rfl
@[simp] theorem State.setDie_hours (s : State) (d : Nat) (x : Die) : (s.setDie d x).hours = s.hours := rfl
@[simp] theorem State.setDie_ns (s : State) (d : Nat) (x : Die) : (s.setDie d x).ns = s.ns := rfl
@[simp] theorem State.setDie_cycles (s : State) (d : Nat) (x : Die) : (s.setDie d x).cycles = s.cycles := rfl
@[simp] theorem State.setDie_coming (s : State) (d : Nat) (x : Die) : (s.setDie d x).coming = s.coming := rfl
@[simp] theorem State.setDie_tick (s : State) (d : Nat) (x : Die) : (s.setDie d x).tick = s.tick := rfl
@[simp] theorem State.setDie_turn (s : State) (d : Nat) (x : Die) : (s.setDie d x).turn = s.turn := rfl
@[simp] theorem State.setDie_parked (s : State) (d : Nat) (x : Die) : (s.setDie d x).parked = s.parked := rfl
@[simp] theorem State.setDie_rotor (s : State) (d : Nat) (x : Die) : (s.setDie d x).rotor = s.rotor := rfl
@[simp] theorem State.modDie_cores (s : State) (d : Nat) (f : Die → Die) : (s.modDie d f).cores = s.cores := rfl
@[simp] theorem State.modDie_far (s : State) (d : Nat) (f : Die → Die) : (s.modDie d f).far = s.far := rfl
@[simp] theorem State.modDie_farKeys (s : State) (d : Nat) (f : Die → Die) : (s.modDie d f).farKeys = s.farKeys := rfl
@[simp] theorem State.modDie_codeOld (s : State) (d : Nat) (f : Die → Die) : (s.modDie d f).codeOld = s.codeOld := rfl
@[simp] theorem State.modDie_releases (s : State) (d : Nat) (f : Die → Die) : (s.modDie d f).releases = s.releases := rfl
@[simp] theorem State.modDie_sched (s : State) (d : Nat) (f : Die → Die) : (s.modDie d f).sched = s.sched := rfl
@[simp] theorem State.modDie_ctxs (s : State) (d : Nat) (f : Die → Die) : (s.modDie d f).ctxs = s.ctxs := rfl
@[simp] theorem State.modDie_box (s : State) (d : Nat) (f : Die → Die) : (s.modDie d f).box = s.box := rfl
@[simp] theorem State.modDie_host (s : State) (d : Nat) (f : Die → Die) : (s.modDie d f).host = s.host := rfl
@[simp] theorem State.modDie_keystone (s : State) (d : Nat) (f : Die → Die) : (s.modDie d f).keystone = s.keystone := rfl
@[simp] theorem State.modDie_hours (s : State) (d : Nat) (f : Die → Die) : (s.modDie d f).hours = s.hours := rfl
@[simp] theorem State.modDie_ns (s : State) (d : Nat) (f : Die → Die) : (s.modDie d f).ns = s.ns := rfl
@[simp] theorem State.modDie_cycles (s : State) (d : Nat) (f : Die → Die) : (s.modDie d f).cycles = s.cycles := rfl
@[simp] theorem State.modDie_coming (s : State) (d : Nat) (f : Die → Die) : (s.modDie d f).coming = s.coming := rfl
@[simp] theorem State.modDie_tick (s : State) (d : Nat) (f : Die → Die) : (s.modDie d f).tick = s.tick := rfl
@[simp] theorem State.modDie_turn (s : State) (d : Nat) (f : Die → Die) : (s.modDie d f).turn = s.turn := rfl
@[simp] theorem State.modDie_parked (s : State) (d : Nat) (f : Die → Die) : (s.modDie d f).parked = s.parked := rfl
@[simp] theorem State.modDie_rotor (s : State) (d : Nat) (f : Die → Die) : (s.modDie d f).rotor = s.rotor := rfl
@[simp] theorem State.setCtx_cores (s : State) (c : Nat) (x : Ctx) : (s.setCtx c x).cores = s.cores := rfl
@[simp] theorem State.setCtx_dies (s : State) (c : Nat) (x : Ctx) : (s.setCtx c x).dies = s.dies := rfl
@[simp] theorem State.setCtx_far (s : State) (c : Nat) (x : Ctx) : (s.setCtx c x).far = s.far := rfl
@[simp] theorem State.setCtx_farKeys (s : State) (c : Nat) (x : Ctx) : (s.setCtx c x).farKeys = s.farKeys := rfl
@[simp] theorem State.setCtx_codeOld (s : State) (c : Nat) (x : Ctx) : (s.setCtx c x).codeOld = s.codeOld := rfl
@[simp] theorem State.setCtx_releases (s : State) (c : Nat) (x : Ctx) : (s.setCtx c x).releases = s.releases := rfl
@[simp] theorem State.setCtx_sched (s : State) (c : Nat) (x : Ctx) : (s.setCtx c x).sched = s.sched := rfl
@[simp] theorem State.setCtx_box (s : State) (c : Nat) (x : Ctx) : (s.setCtx c x).box = s.box := rfl
@[simp] theorem State.setCtx_host (s : State) (c : Nat) (x : Ctx) : (s.setCtx c x).host = s.host := rfl
@[simp] theorem State.setCtx_keystone (s : State) (c : Nat) (x : Ctx) : (s.setCtx c x).keystone = s.keystone := rfl
@[simp] theorem State.setCtx_hours (s : State) (c : Nat) (x : Ctx) : (s.setCtx c x).hours = s.hours := rfl
@[simp] theorem State.setCtx_ns (s : State) (c : Nat) (x : Ctx) : (s.setCtx c x).ns = s.ns := rfl
@[simp] theorem State.setCtx_cycles (s : State) (c : Nat) (x : Ctx) : (s.setCtx c x).cycles = s.cycles := rfl
@[simp] theorem State.setCtx_coming (s : State) (c : Nat) (x : Ctx) : (s.setCtx c x).coming = s.coming := rfl
@[simp] theorem State.setCtx_tick (s : State) (c : Nat) (x : Ctx) : (s.setCtx c x).tick = s.tick := rfl
@[simp] theorem State.setCtx_turn (s : State) (c : Nat) (x : Ctx) : (s.setCtx c x).turn = s.turn := rfl
@[simp] theorem State.setCtx_parked (s : State) (c : Nat) (x : Ctx) : (s.setCtx c x).parked = s.parked := rfl
@[simp] theorem State.setCtx_rotor (s : State) (c : Nat) (x : Ctx) : (s.setCtx c x).rotor = s.rotor := rfl
@[simp] theorem State.modCtx_cores (s : State) (c : Nat) (f : Ctx → Ctx) : (s.modCtx c f).cores = s.cores := rfl
@[simp] theorem State.modCtx_dies (s : State) (c : Nat) (f : Ctx → Ctx) : (s.modCtx c f).dies = s.dies := rfl
@[simp] theorem State.modCtx_far (s : State) (c : Nat) (f : Ctx → Ctx) : (s.modCtx c f).far = s.far := rfl
@[simp] theorem State.modCtx_farKeys (s : State) (c : Nat) (f : Ctx → Ctx) : (s.modCtx c f).farKeys = s.farKeys := rfl
@[simp] theorem State.modCtx_codeOld (s : State) (c : Nat) (f : Ctx → Ctx) : (s.modCtx c f).codeOld = s.codeOld := rfl
@[simp] theorem State.modCtx_releases (s : State) (c : Nat) (f : Ctx → Ctx) : (s.modCtx c f).releases = s.releases := rfl
@[simp] theorem State.modCtx_sched (s : State) (c : Nat) (f : Ctx → Ctx) : (s.modCtx c f).sched = s.sched := rfl
@[simp] theorem State.modCtx_box (s : State) (c : Nat) (f : Ctx → Ctx) : (s.modCtx c f).box = s.box := rfl
@[simp] theorem State.modCtx_host (s : State) (c : Nat) (f : Ctx → Ctx) : (s.modCtx c f).host = s.host := rfl
@[simp] theorem State.modCtx_keystone (s : State) (c : Nat) (f : Ctx → Ctx) : (s.modCtx c f).keystone = s.keystone := rfl
@[simp] theorem State.modCtx_hours (s : State) (c : Nat) (f : Ctx → Ctx) : (s.modCtx c f).hours = s.hours := rfl
@[simp] theorem State.modCtx_ns (s : State) (c : Nat) (f : Ctx → Ctx) : (s.modCtx c f).ns = s.ns := rfl
@[simp] theorem State.modCtx_cycles (s : State) (c : Nat) (f : Ctx → Ctx) : (s.modCtx c f).cycles = s.cycles := rfl
@[simp] theorem State.modCtx_coming (s : State) (c : Nat) (f : Ctx → Ctx) : (s.modCtx c f).coming = s.coming := rfl
@[simp] theorem State.modCtx_tick (s : State) (c : Nat) (f : Ctx → Ctx) : (s.modCtx c f).tick = s.tick := rfl
@[simp] theorem State.modCtx_turn (s : State) (c : Nat) (f : Ctx → Ctx) : (s.modCtx c f).turn = s.turn := rfl
@[simp] theorem State.modCtx_parked (s : State) (c : Nat) (f : Ctx → Ctx) : (s.modCtx c f).parked = s.parked := rfl
@[simp] theorem State.modCtx_rotor (s : State) (c : Nat) (f : Ctx → Ctx) : (s.modCtx c f).rotor = s.rotor := rfl
@[simp] theorem State.modTeam_dies (s : State) (c r : Nat) (f : Team → Team) : (s.modTeam c r f).dies = s.dies := by
  unfold State.modTeam; split <;> rfl
@[simp] theorem State.modTeam_far (s : State) (c r : Nat) (f : Team → Team) : (s.modTeam c r f).far = s.far := by
  unfold State.modTeam; split <;> rfl
@[simp] theorem State.modTeam_farKeys (s : State) (c r : Nat) (f : Team → Team) : (s.modTeam c r f).farKeys = s.farKeys := by
  unfold State.modTeam; split <;> rfl
@[simp] theorem State.modTeam_codeOld (s : State) (c r : Nat) (f : Team → Team) : (s.modTeam c r f).codeOld = s.codeOld := by
  unfold State.modTeam; split <;> rfl
@[simp] theorem State.modTeam_releases (s : State) (c r : Nat) (f : Team → Team) : (s.modTeam c r f).releases = s.releases := by
  unfold State.modTeam; split <;> rfl
@[simp] theorem State.modTeam_sched (s : State) (c r : Nat) (f : Team → Team) : (s.modTeam c r f).sched = s.sched := by
  unfold State.modTeam; split <;> rfl
@[simp] theorem State.modTeam_ctxs (s : State) (c r : Nat) (f : Team → Team) : (s.modTeam c r f).ctxs = s.ctxs := by
  unfold State.modTeam; split <;> rfl
@[simp] theorem State.modTeam_box (s : State) (c r : Nat) (f : Team → Team) : (s.modTeam c r f).box = s.box := by
  unfold State.modTeam; split <;> rfl
@[simp] theorem State.modTeam_host (s : State) (c r : Nat) (f : Team → Team) : (s.modTeam c r f).host = s.host := by
  unfold State.modTeam; split <;> rfl
@[simp] theorem State.modTeam_keystone (s : State) (c r : Nat) (f : Team → Team) : (s.modTeam c r f).keystone = s.keystone := by
  unfold State.modTeam; split <;> rfl
@[simp] theorem State.modTeam_hours (s : State) (c r : Nat) (f : Team → Team) : (s.modTeam c r f).hours = s.hours := by
  unfold State.modTeam; split <;> rfl
@[simp] theorem State.modTeam_ns (s : State) (c r : Nat) (f : Team → Team) : (s.modTeam c r f).ns = s.ns := by
  unfold State.modTeam; split <;> rfl
@[simp] theorem State.modTeam_cycles (s : State) (c r : Nat) (f : Team → Team) : (s.modTeam c r f).cycles = s.cycles := by
  unfold State.modTeam; split <;> rfl
@[simp] theorem State.modTeam_coming (s : State) (c r : Nat) (f : Team → Team) : (s.modTeam c r f).coming = s.coming := by
  unfold State.modTeam; split <;> rfl
@[simp] theorem State.modTeam_tick (s : State) (c r : Nat) (f : Team → Team) : (s.modTeam c r f).tick = s.tick := by
  unfold State.modTeam; split <;> rfl
@[simp] theorem State.modTeam_turn (s : State) (c r : Nat) (f : Team → Team) : (s.modTeam c r f).turn = s.turn := by
  unfold State.modTeam; split <;> rfl
@[simp] theorem State.modTeam_parked (s : State) (c r : Nat) (f : Team → Team) : (s.modTeam c r f).parked = s.parked := by
  unfold State.modTeam; split <;> rfl
@[simp] theorem State.modTeam_rotor (s : State) (c r : Nat) (f : Team → Team) : (s.modTeam c r f).rotor = s.rotor := by
  unfold State.modTeam; split <;> rfl
@[simp] theorem State.modGroup_dies (s : State) (c r g : Nat) (f : Group → Group) : (s.modGroup c r g f).dies = s.dies := by
  unfold State.modGroup State.modTeam; split <;> rfl
@[simp] theorem State.modGroup_far (s : State) (c r g : Nat) (f : Group → Group) : (s.modGroup c r g f).far = s.far := by
  unfold State.modGroup State.modTeam; split <;> rfl
@[simp] theorem State.modGroup_farKeys (s : State) (c r g : Nat) (f : Group → Group) : (s.modGroup c r g f).farKeys = s.farKeys := by
  unfold State.modGroup State.modTeam; split <;> rfl
@[simp] theorem State.modGroup_codeOld (s : State) (c r g : Nat) (f : Group → Group) : (s.modGroup c r g f).codeOld = s.codeOld := by
  unfold State.modGroup State.modTeam; split <;> rfl
@[simp] theorem State.modGroup_releases (s : State) (c r g : Nat) (f : Group → Group) : (s.modGroup c r g f).releases = s.releases := by
  unfold State.modGroup State.modTeam; split <;> rfl
@[simp] theorem State.modGroup_sched (s : State) (c r g : Nat) (f : Group → Group) : (s.modGroup c r g f).sched = s.sched := by
  unfold State.modGroup State.modTeam; split <;> rfl
@[simp] theorem State.modGroup_ctxs (s : State) (c r g : Nat) (f : Group → Group) : (s.modGroup c r g f).ctxs = s.ctxs := by
  unfold State.modGroup State.modTeam; split <;> rfl
@[simp] theorem State.modGroup_box (s : State) (c r g : Nat) (f : Group → Group) : (s.modGroup c r g f).box = s.box := by
  unfold State.modGroup State.modTeam; split <;> rfl
@[simp] theorem State.modGroup_host (s : State) (c r g : Nat) (f : Group → Group) : (s.modGroup c r g f).host = s.host := by
  unfold State.modGroup State.modTeam; split <;> rfl
@[simp] theorem State.modGroup_keystone (s : State) (c r g : Nat) (f : Group → Group) : (s.modGroup c r g f).keystone = s.keystone := by
  unfold State.modGroup State.modTeam; split <;> rfl
@[simp] theorem State.modGroup_hours (s : State) (c r g : Nat) (f : Group → Group) : (s.modGroup c r g f).hours = s.hours := by
  unfold State.modGroup State.modTeam; split <;> rfl
@[simp] theorem State.modGroup_ns (s : State) (c r g : Nat) (f : Group → Group) : (s.modGroup c r g f).ns = s.ns := by
  unfold State.modGroup State.modTeam; split <;> rfl
@[simp] theorem State.modGroup_cycles (s : State) (c r g : Nat) (f : Group → Group) : (s.modGroup c r g f).cycles = s.cycles := by
  unfold State.modGroup State.modTeam; split <;> rfl
@[simp] theorem State.modGroup_coming (s : State) (c r g : Nat) (f : Group → Group) : (s.modGroup c r g f).coming = s.coming := by
  unfold State.modGroup State.modTeam; split <;> rfl
@[simp] theorem State.modGroup_tick (s : State) (c r g : Nat) (f : Group → Group) : (s.modGroup c r g f).tick = s.tick := by
  unfold State.modGroup State.modTeam; split <;> rfl
@[simp] theorem State.modGroup_turn (s : State) (c r g : Nat) (f : Group → Group) : (s.modGroup c r g f).turn = s.turn := by
  unfold State.modGroup State.modTeam; split <;> rfl
@[simp] theorem State.modGroup_parked (s : State) (c r g : Nat) (f : Group → Group) : (s.modGroup c r g f).parked = s.parked := by
  unfold State.modGroup State.modTeam; split <;> rfl
@[simp] theorem State.modGroup_rotor (s : State) (c r g : Nat) (f : Group → Group) : (s.modGroup c r g f).rotor = s.rotor := by
  unfold State.modGroup State.modTeam; split <;> rfl
@[simp] theorem State.modThread_dies (s : State) (c r g l : Nat) (f : Thread → Thread) : (s.modThread c r g l f).dies = s.dies := by
  unfold State.modThread State.modGroup State.modTeam; split <;> rfl
@[simp] theorem State.modThread_far (s : State) (c r g l : Nat) (f : Thread → Thread) : (s.modThread c r g l f).far = s.far := by
  unfold State.modThread State.modGroup State.modTeam; split <;> rfl
@[simp] theorem State.modThread_farKeys (s : State) (c r g l : Nat) (f : Thread → Thread) : (s.modThread c r g l f).farKeys = s.farKeys := by
  unfold State.modThread State.modGroup State.modTeam; split <;> rfl
@[simp] theorem State.modThread_codeOld (s : State) (c r g l : Nat) (f : Thread → Thread) : (s.modThread c r g l f).codeOld = s.codeOld := by
  unfold State.modThread State.modGroup State.modTeam; split <;> rfl
@[simp] theorem State.modThread_releases (s : State) (c r g l : Nat) (f : Thread → Thread) : (s.modThread c r g l f).releases = s.releases := by
  unfold State.modThread State.modGroup State.modTeam; split <;> rfl
@[simp] theorem State.modThread_sched (s : State) (c r g l : Nat) (f : Thread → Thread) : (s.modThread c r g l f).sched = s.sched := by
  unfold State.modThread State.modGroup State.modTeam; split <;> rfl
@[simp] theorem State.modThread_ctxs (s : State) (c r g l : Nat) (f : Thread → Thread) : (s.modThread c r g l f).ctxs = s.ctxs := by
  unfold State.modThread State.modGroup State.modTeam; split <;> rfl
@[simp] theorem State.modThread_box (s : State) (c r g l : Nat) (f : Thread → Thread) : (s.modThread c r g l f).box = s.box := by
  unfold State.modThread State.modGroup State.modTeam; split <;> rfl
@[simp] theorem State.modThread_host (s : State) (c r g l : Nat) (f : Thread → Thread) : (s.modThread c r g l f).host = s.host := by
  unfold State.modThread State.modGroup State.modTeam; split <;> rfl
@[simp] theorem State.modThread_keystone (s : State) (c r g l : Nat) (f : Thread → Thread) : (s.modThread c r g l f).keystone = s.keystone := by
  unfold State.modThread State.modGroup State.modTeam; split <;> rfl
@[simp] theorem State.modThread_hours (s : State) (c r g l : Nat) (f : Thread → Thread) : (s.modThread c r g l f).hours = s.hours := by
  unfold State.modThread State.modGroup State.modTeam; split <;> rfl
@[simp] theorem State.modThread_ns (s : State) (c r g l : Nat) (f : Thread → Thread) : (s.modThread c r g l f).ns = s.ns := by
  unfold State.modThread State.modGroup State.modTeam; split <;> rfl
@[simp] theorem State.modThread_cycles (s : State) (c r g l : Nat) (f : Thread → Thread) : (s.modThread c r g l f).cycles = s.cycles := by
  unfold State.modThread State.modGroup State.modTeam; split <;> rfl
@[simp] theorem State.modThread_coming (s : State) (c r g l : Nat) (f : Thread → Thread) : (s.modThread c r g l f).coming = s.coming := by
  unfold State.modThread State.modGroup State.modTeam; split <;> rfl
@[simp] theorem State.modThread_tick (s : State) (c r g l : Nat) (f : Thread → Thread) : (s.modThread c r g l f).tick = s.tick := by
  unfold State.modThread State.modGroup State.modTeam; split <;> rfl
@[simp] theorem State.modThread_turn (s : State) (c r g l : Nat) (f : Thread → Thread) : (s.modThread c r g l f).turn = s.turn := by
  unfold State.modThread State.modGroup State.modTeam; split <;> rfl
@[simp] theorem State.modThread_parked (s : State) (c r g l : Nat) (f : Thread → Thread) : (s.modThread c r g l f).parked = s.parked := by
  unfold State.modThread State.modGroup State.modTeam; split <;> rfl
@[simp] theorem State.modThread_rotor (s : State) (c r g l : Nat) (f : Thread → Thread) : (s.modThread c r g l f).rotor = s.rotor := by
  unfold State.modThread State.modGroup State.modTeam; split <;> rfl

/-! ### Parts of the package -/

@[simp] theorem State.core_setCore_same (s : State) (c : Nat) (x : Core) : (s.setCore c x).core c = x := by simp [State.core, State.setCore]
theorem State.core_setCore_of_ne (s : State) {c e : Nat} (x : Core) (h : e ≠ c) : (s.setCore c x).core e = s.core e :=
  Table.get_insert_of_ne _ _ _ h
@[simp] theorem State.core_modCore_same (s : State) (c : Nat) (f : Core → Core) : (s.modCore c f).core c = f (s.core c) := by
  simp [State.modCore]
theorem State.core_modCore_of_ne (s : State) {c e : Nat} (f : Core → Core) (h : e ≠ c) : (s.modCore c f).core e = s.core e :=
  s.core_setCore_of_ne _ h
@[simp] theorem State.die_setDie_same (s : State) (d : Nat) (x : Die) : (s.setDie d x).die d = x := by simp [State.die, State.setDie]
theorem State.die_setDie_of_ne (s : State) {d e : Nat} (x : Die) (h : e ≠ d) : (s.setDie d x).die e = s.die e :=
  Table.get_insert_of_ne _ _ _ h
@[simp] theorem State.die_modDie_same (s : State) (d : Nat) (f : Die → Die) : (s.modDie d f).die d = f (s.die d) := by
  simp [State.modDie]
theorem State.die_modDie_of_ne (s : State) {d e : Nat} (f : Die → Die) (h : e ≠ d) : (s.modDie d f).die e = s.die e :=
  s.die_setDie_of_ne _ h
@[simp] theorem State.ctx_setCtx_same (s : State) (c : Nat) (x : Ctx) : (s.setCtx c x).ctx c = x := by simp [State.ctx, State.setCtx]
theorem State.ctx_setCtx_of_ne (s : State) {c e : Nat} (x : Ctx) (h : e ≠ c) : (s.setCtx c x).ctx e = s.ctx e :=
  Table.get_insert_of_ne _ _ _ h
@[simp] theorem State.ctx_modCtx_same (s : State) (c : Nat) (f : Ctx → Ctx) : (s.modCtx c f).ctx c = f (s.ctx c) := by
  simp [State.modCtx]
theorem State.ctx_modCtx_of_ne (s : State) {c e : Nat} (f : Ctx → Ctx) (h : e ≠ c) : (s.modCtx c f).ctx e = s.ctx e :=
  s.ctx_setCtx_of_ne _ h
@[simp] theorem State.team_setTeam_same (s : State) (c r : Nat) (x : Team) : (s.setTeam c r x).team c r = some x := by
  simp [State.team, State.setTeam]
theorem State.team_setTeam_of_ne_rec (s : State) (c : Nat) {r q : Nat} (x : Team) (h : q ≠ r) : (s.setTeam c r x).team c q = s.team c q := by
  simp [State.team, State.setTeam, Table.find_insert_of_ne _ _ h]
theorem State.team_setTeam_of_ne_core (s : State) {c e : Nat} (r q : Nat) (x : Team) (h : e ≠ c) : (s.setTeam c r x).team e q = s.team e q := by
  simp [State.team, State.setTeam, s.core_modCore_of_ne _ h]
theorem State.team_modTeam_same (s : State) (c r : Nat) (f : Team → Team) {t : Team} (h : s.team c r = some t) :
    (s.modTeam c r f).team c r = some (f t) := by
  simp [State.modTeam, h]
theorem State.team_modTeam_of_ne_rec (s : State) (c : Nat) {r q : Nat} (f : Team → Team) (h : q ≠ r) :
    (s.modTeam c r f).team c q = s.team c q := by
  unfold State.modTeam; split
  · exact s.team_setTeam_of_ne_rec c _ h
  · rfl
theorem State.core_modTeam_of_ne (s : State) {c e : Nat} (r : Nat) (f : Team → Team) (h : e ≠ c) : (s.modTeam c r f).core e = s.core e := by
  unfold State.modTeam; split
  · exact s.core_modCore_of_ne _ h
  · rfl
@[simp] theorem State.core_spend_teams (s : State) (c n e : Nat) : ((s.spend c n).core e).teams = (s.core e).teams := by
  by_cases h : e = c
  · subst h; simp [State.spend]
  · rw [State.spend, s.core_modCore_of_ne _ h]
@[simp] theorem State.team_spend (s : State) (c n e r : Nat) : (s.spend c n).team e r = s.team e r := by simp [State.team]
theorem Thread.reg_setReg_same (th : Thread) (r : Nat) (v : Word) : (th.setReg r v).reg r = v := by simp [Thread.reg, Thread.setReg]
theorem Thread.reg_setReg_of_ne (th : Thread) {r q : Nat} (v : Word) (h : q ≠ r) : (th.setReg r v).reg q = th.reg q := by
  simp [Thread.reg, Thread.setReg, Table.get_put_of_ne _ _ _ h]
theorem Thread.pred_setPred_zero (th : Thread) (p : Nat) (v : Byte) : (th.setPred p v).pred 0 = 0xFF := by simp [Thread.pred]
theorem Thread.pred_setPred_same (th : Thread) {p : Nat} (v : Byte) (h : p ≠ 0) : (th.setPred p v).pred p = v := by
  simp [Thread.pred, Thread.setPred, h]
theorem Thread.pred_setPred_of_ne (th : Thread) {p q : Nat} (v : Byte) (h : q ≠ p) : (th.setPred p v).pred q = th.pred q := by
  unfold Thread.pred Thread.setPred
  by_cases hp : p = 0
  · simp [hp]
  · by_cases hq : q = 0
    · simp [hq]
    · simp [hp, hq, Table.get_put_of_ne _ _ _ h]

end Sys2Proof.Machine
end

