-- ==== Sys2Proof/Laws/Issue.lean ====
section
/-!
SUPPORT. Issue: what the prologue of an instruction and its completion do in a state in which the instruction is ready.
-/

namespace Sys2Proof.Machine

/-! ### A quiet thread -/

theorem Thread.eta_pend {th : Thread} (h : th.pend = []) : { th with pend := [] } = th := by
  cases th; simp_all

theorem Thread.settle_quiet {th : Thread} (h : th.pend = []) (k : Touch) (pick : Nat → Bool) : th.settle k pick = some th := by
  simp [Thread.settle, h, Thread.eta_pend h]

theorem Thread.landAll_quiet {th : Thread} (h : th.pend = []) : th.landAll = some th := by
  simp [Thread.landAll, h, Thread.eta_pend h]

theorem Thread.landThese_quiet {th : Thread} (h : th.pend = []) (ids : List Nat) : th.landThese ids = some th := by
  simp [Thread.landThese, Thread.landSome, h, Thread.eta_pend h]

theorem Thread.landFloat_quiet {th : Thread} (h : th.pend = []) : th.landFloat = some th := by
  simp [Thread.landFloat, Thread.landSome, h, Thread.eta_pend h]

theorem passOrder_quiet (s : State) (t : Turn) (i : Instr) (l : Nat) {th : Thread} (h : th.pend = []) (hf : th.relFence = false)
    (ha : th.acqs = []) (hn : th.fences = []) : passOrder s t i l th = some th := by
  have he : ({ th with relFence := false, acqs := if isNearOrdered i then [] else th.acqs, fences := [] } : Thread) = th := by
    cases th; simp_all
  unfold passOrder
  split
  · rfl
  · simp [Thread.orderedBehind, ha, hn, hf, Thread.landThese_quiet h]
    cases th; simp_all

theorem Thread.poisonedReg_quiet {th : Thread} (h : th.poison = []) (i : Instr) (p : Option Pfx) (x : List Nat) :
    th.poisonedReg i p x = none := by
  simp [Thread.poisonedReg, h]

/-! ### The prologue -/

theorem mem_issueLanes {t : Turn} {g : Group} {c : LaneCtx} :
    c ∈ issueLanes t g ↔ c.lane ∈ t.lanes ∧ g.threads[c.lane]? = some c.th ∧ c.m = c.th.modes t.pfx := by
  constructor
  · intro h
    simp only [issueLanes, List.mem_filterMap, Option.map_eq_some_iff] at h
    obtain ⟨l, hl, th, hth, rfl⟩ := h
    exact ⟨hl, hth, rfl⟩
  · rintro ⟨hl, hth, hm⟩
    simp only [issueLanes, List.mem_filterMap, Option.map_eq_some_iff]
    exact ⟨c.lane, hl, c.th, hth, by cases c; simp_all⟩

theorem issueLanes_pairs (t : Turn) (g : Group) :
    (issueLanes t g).map (fun c => (c.lane, c.th)) = t.lanes.filterMap (fun l => (g.threads[l]?).map (fun th => (l, th))) := by
  simp only [issueLanes, List.map_filterMap, Option.map_map]; rfl

/-- A ready instruction issues, with the lanes as they stand. -/
theorem prologue_ready {i : Instr} {s : State} {t : Turn} {m : Team} {g : Group} (h : Ready i s t m g) :
    prologue i s = .go s { t := t, team := m, grp := g, lanes := issueLanes t g } := by
  have hq : ∀ e ∈ t.lanes.filterMap (fun l => (g.threads[l]?).map (fun th => (l, th))),
      e.2.pend = [] ∧ e.2.poison = [] ∧ e.2.relFence = false ∧ e.2.acqs = [] ∧ e.2.fences = [] := by
    intro e he
    rw [← issueLanes_pairs] at he
    obtain ⟨c, hc, rfl⟩ := List.mem_map.1 he
    exact h.quiet c hc
  have hw := h.words
  rw [issueLanes_pairs] at hw
  simp only [prologue, h.turn, h.team, h.group, hw]
  have hhold : (t.lanes.filterMap (fun l => (g.threads[l]?).map (fun th => (l, th)))).any (fun e => e.2.pend.any (·.hold)) = false := by
    rw [List.any_eq_false]
    intro e he
    simp [(hq e he).1]
  rw [hhold]
  have hmap : (t.lanes.filterMap (fun l => (g.threads[l]?).map (fun th => (l, th)))).map (fun e => (e.1,
      e.2.settle (touchOf i t g.budget e.2) (Config.unnamedRead s.tick e.1))) =
      (t.lanes.filterMap (fun l => (g.threads[l]?).map (fun th => (l, th)))).map (fun e => (e.1, some e.2)) := by
    apply List.map_congr_left
    intro e he
    rw [Thread.settle_quiet (hq e he).1]
  simp only [hmap]
  have hnone : (((t.lanes.filterMap (fun l => (g.threads[l]?).map (fun th => (l, th)))).map (fun e => (e.1, some e.2))).any
      (fun e => e.2.isNone)) = false := by
    rw [List.any_eq_false]
    intro e he
    obtain ⟨x, _, rfl⟩ := List.mem_map.1 he
    simp
  rw [hnone]
  have hlanes : ((t.lanes.filterMap (fun l => (g.threads[l]?).map (fun th => (l, th)))).map (fun e => (e.1, some e.2))).filterMap
      (fun e => e.2.map (fun th => (⟨e.1, th, th.modes t.pfx⟩ : LaneCtx))) = issueLanes t g := by
    simp only [List.filterMap_map]
    rw [issueLanes, List.filterMap_filterMap]
    apply List.filterMap_congr
    intro l _
    cases g.threads[l]? <;> rfl
  rw [hlanes]
  have hpois : (issueLanes t g).findSome? (fun c => c.th.poisonedReg i t.pfx (linkReads i g.budget)) = none := by
    rw [List.findSome?_eq_none_iff]
    intro c hc
    exact Thread.poisonedReg_quiet (h.quiet c hc).2.1 _ _ _
  have hpass : (issueLanes t g).map (fun c => (passOrder s t i c.lane c.th).map (fun th => ({ c with th := th } : LaneCtx))) =
      (issueLanes t g).map some := by
    apply List.map_congr_left
    intro c hc
    obtain ⟨h1, _, h3, h4, h5⟩ := h.quiet c hc
    rw [passOrder_quiet s t i c.lane h1 h3 h4 h5]
    rfl
  rw [hpois]
  simp only [hpass, Option.isSome_none, Bool.false_eq_true, if_false, h.uses, List.isEmpty_nil, Bool.not_true, Option.filter_none]
  have hsome : ((issueLanes t g).map some).any (·.isNone) = false := by
    rw [List.any_eq_false]
    intro e he
    obtain ⟨x, _, rfl⟩ := List.mem_map.1 he
    simp
  rw [hsome]
  have hid : ((issueLanes t g).map some).filterMap id = issueLanes t g := by simp
  simp only [hid, Bool.false_eq_true, if_false]

theorem issue_ready {i : Instr} {s : State} {t : Turn} {m : Team} {g : Group} (h : Ready i s t m g)
    (body : State → Issue → Host.Outcome State Fault Refusal) :
    issue i s body = body s { t := t, team := m, grp := g, lanes := issueLanes t g } := by
  simp [issue, prologue_ready h]

end Sys2Proof.Machine
end

