-- ==== Sys2Proof/Laws/Complete.lean ====
section
/-!
SUPPORT. Complete: the completion of an instruction touches only its issue set, and what it leaves in each lane.
-/

namespace Sys2Proof.Machine

/-! ### Threads of a group -/

theorem State.dropStopped_eq (s : State) : ∃ x, s.dropStopped = { s with turn := x } := by
  unfold State.dropStopped
  cases h : s.turn with
  | none => exact ⟨none, by cases s; simp_all⟩
  | some t =>
    simp only
    split
    · exact ⟨some t, by cases s; simp_all⟩
    · exact ⟨none, rfl⟩

/-- Writing back the threads of a list. -/
def Group.putThreads (g : Group) (ths : List (Nat × Thread)) : Group := ths.foldl (fun g e => g.modThread e.1 (fun _ => e.2)) g

theorem State.slotOf_eq {s : State} {t : Turn} {m : Team} {g : Group} (hm : s.team t.core t.tr = some m) (hg : m.groups[t.grp]? = some g) :
    s.slotOf t = g.slot := by
  simp [State.slotOf, hm, hg]

theorem complete_eq (s : State) (t : Turn) (ths : List (Nat × Thread)) (cost : Nat) :
    ∃ x n, complete s t ths cost = { (s.modGroup t.core t.tr t.grp (·.putThreads ths)).modCore t.core (fun k =>
      { k with busy := k.busy.set ((s.modGroup t.core t.tr t.grp (·.putThreads ths)).slotOf t) n }) with turn := x } := by
  unfold complete
  obtain ⟨x, hx⟩ := State.dropStopped_eq { (s.modGroup t.core t.tr t.grp (·.putThreads ths)).occupy t cost
    with turn := if ((ths.filter (fun e => e.2.runnable)).map (·.1)).isEmpty then none else
      some { t with lanes := (ths.filter (fun e => e.2.runnable)).map (·.1) } }
  exact ⟨x, _, hx⟩

theorem Group.putThreads_rest (g : Group) (ths : List (Nat × Thread)) : { g.putThreads ths with threads := g.threads } = g := by
  induction ths generalizing g with
  | nil => rfl
  | cons e r ih =>
    have := ih (g.modThread e.1 (fun _ => e.2))
    simp only [Group.putThreads, List.foldl_cons] at this ⊢
    have h2 : ({ g.modThread e.1 (fun _ => e.2) with threads := g.threads } : Group) = g := rfl
    generalize List.foldl (fun g e => Group.modThread g e.1 fun _ => e.2) (g.modThread e.1 fun _ => e.2) r = x at this ⊢
    cases x; cases g; simp_all [Group.modThread]

theorem Group.putThreads_other (g : Group) (ths : List (Nat × Thread)) {l : Nat} (h : l ∉ ths.map (·.1)) :
    (g.putThreads ths).threads[l]? = g.threads[l]? := by
  induction ths generalizing g with
  | nil => rfl
  | cons e r ih =>
    simp only [List.map_cons, List.mem_cons, not_or] at h
    have := ih (g.modThread e.1 (fun _ => e.2)) h.2
    simp only [Group.putThreads, List.foldl_cons] at this ⊢
    rw [this]
    simp [Group.modThread, Ne.symm h.1]

theorem Group.putThreads_length (g : Group) (ths : List (Nat × Thread)) : (g.putThreads ths).threads.length = g.threads.length := by
  induction ths generalizing g with
  | nil => rfl
  | cons e r ih =>
    have := ih (g.modThread e.1 (fun _ => e.2))
    simp only [Group.putThreads, List.foldl_cons] at this ⊢
    rw [this]
    simp [Group.modThread]

theorem Group.putThreads_at (g : Group) (ths : List (Nat × Thread)) (hn : (ths.map (·.1)).Nodup) {l : Nat} {x : Thread} (h : (l, x) ∈ ths)
    (hl : l < g.threads.length) : (g.putThreads ths).threads[l]? = some x := by
  induction ths generalizing g with
  | nil => simp at h
  | cons e r ih =>
    simp only [List.map_cons, List.nodup_cons] at hn
    rcases List.mem_cons.1 h with rfl | h
    · have := Group.putThreads_other (g.modThread l (fun _ => x)) r hn.1
      simp only [Group.putThreads, List.foldl_cons] at this ⊢
      rw [this]
      simp [Group.modThread, hl]
    · have := ih (g.modThread e.1 (fun _ => e.2)) hn.2 h (by simpa [Group.modThread] using hl)
      simpa only [Group.putThreads, List.foldl_cons] using this

/-! ### The group of the turn -/

theorem State.group_modGroup (s : State) (c r k : Nat) (f : Group → Group) {m : Team} {g : Group} (hm : s.team c r = some m)
    (hg : m.groups[k]? = some g) : ((s.modGroup c r k f).team c r).bind (fun m => m.groups[k]?) = some (f g) := by
  rw [State.modGroup, State.team_modTeam_same _ _ _ _ hm]
  simp [Team.modGroup, hg]

theorem State.slotOf_putThreads (s : State) (t : Turn) (ths : List (Nat × Thread)) :
    (s.modGroup t.core t.tr t.grp (·.putThreads ths)).slotOf t = s.slotOf t := by
  cases hm : s.team t.core t.tr with
  | none => simp [State.slotOf, State.modGroup, State.modTeam, hm]
  | some m =>
    cases hg : m.groups[t.grp]? with
    | none => simp [State.slotOf, State.modGroup, State.team_modTeam_same _ _ _ _ hm, hm, Team.modGroup, hg]
    | some g =>
      have hs : (g.putThreads ths).slot = g.slot := by
        have := congrArg Group.slot (Group.putThreads_rest g ths)
        exact this
      simp [State.slotOf, State.modGroup, State.team_modTeam_same _ _ _ _ hm, hm, Team.modGroup, hg, hs]

theorem State.team_busy (s : State) (c : Nat) (b : List Nat → List Nat) (e r : Nat) :
    (s.modCore c (fun k => { k with busy := b k.busy })).team e r = s.team e r := by
  by_cases h : e = c
  · subst h; simp [State.team]
  · simp [State.team, s.core_modCore_of_ne _ h]

theorem touches_putThreads (s : State) (t : Turn) (ths : List (Nat × Thread)) (h : ∀ e ∈ ths, e.1 ∈ t.lanes) (x : Option Turn) (n : Nat) :
    TouchesOnly s { (s.modGroup t.core t.tr t.grp (·.putThreads ths)).modCore t.core (fun k => { k with busy := k.busy.set (s.slotOf t) n })
      with turn := x } t := by
  have hl : ∀ l, l ∉ t.lanes → l ∉ ths.map (·.1) := by
    intro l hl hc
    obtain ⟨e, he, rfl⟩ := List.mem_map.1 hc
    exact hl (h e he)
  have hcore : ∀ c, ({ (s.modGroup t.core t.tr t.grp (·.putThreads ths)).modCore t.core (fun k => { k with busy := k.busy.set (s.slotOf t) n })
      with turn := x } : State).core c = ((s.modGroup t.core t.tr t.grp (·.putThreads ths)).modCore t.core (fun k =>
        { k with busy := k.busy.set (s.slotOf t) n })).core c := fun _ => rfl
  have hteam : ∀ r, ({ (s.modGroup t.core t.tr t.grp (·.putThreads ths)).modCore t.core (fun k => { k with busy := k.busy.set (s.slotOf t) n })
      with turn := x } : State).team t.core r = (s.modGroup t.core t.tr t.grp (·.putThreads ths)).team t.core r :=
    fun r => State.team_busy _ _ (fun b => b.set (s.slotOf t) n) _ _
  have hbusy : ((s.modGroup t.core t.tr t.grp (·.putThreads ths)).core t.core).busy = (s.core t.core).busy := by
    rw [State.modGroup, State.modTeam]
    split
    · simp [State.setTeam]
    · rfl
  refine ⟨?_, ?_, ?_, ?_, ?_, ?_⟩
  · cases s
    simp [State.modCore, State.setCore, State.modGroup, State.modTeam]
    split <;> simp [State.setTeam, State.modCore, State.setCore]
  · intro c hc
    rw [hcore, State.core_modCore_of_ne _ _ hc, State.modGroup, State.core_modTeam_of_ne _ _ _ hc]
  · rw [hcore, State.core_modCore_same, State.modGroup, State.modTeam]
    split
    · simp [State.setTeam]
    · rfl
  · intro k hk
    rw [hcore, State.core_modCore_same]
    simp [hbusy, List.getElem?_set_ne (Ne.symm hk)]
  · intro r hr
    rw [hteam, State.modGroup, State.team_modTeam_of_ne_rec _ _ _ hr]
  · intro m hm
    refine ⟨m.modGroup t.grp (·.putThreads ths), ?_, rfl, ?_, ?_⟩
    · rw [hteam, State.modGroup, State.team_modTeam_same _ _ _ _ hm]
    · intro k hk
      simp [Team.modGroup, Ne.symm hk]
    · intro g hg
      refine ⟨g.putThreads ths, by simp [Team.modGroup, hg], Group.putThreads_rest _ _, ?_⟩
      intro l hlt
      exact Group.putThreads_other _ _ (hl l hlt)

/-- The completion of an instruction touches only its issue set. -/
theorem touches_complete (s : State) (t : Turn) (ths : List (Nat × Thread)) (cost : Nat) (h : ∀ e ∈ ths, e.1 ∈ t.lanes) :
    TouchesOnly s (complete s t ths cost) t := by
  obtain ⟨x, n, hx⟩ := complete_eq s t ths cost
  rw [hx, State.slotOf_putThreads]
  exact touches_putThreads s t ths h x n

theorem issueLanes_nodup {t : Turn} (g : Group) (h : t.lanes.Nodup) : ((issueLanes t g).map (·.lane)).Nodup := by
  have : (issueLanes t g).map (·.lane) = t.lanes.filter (fun l => (g.threads[l]?).isSome) := by
    simp only [issueLanes, List.map_filterMap, Option.map_map]
    induction t.lanes with
    | nil => rfl
    | cons l r ih =>
      cases hx : g.threads[l]? <;> simp [hx, Function.comp, ih]
  rw [this]
  exact h.filter _

/-- What the completion of an instruction leaves in a lane of its issue set. -/
theorem threadAt_complete {i : Instr} {s : State} {t : Turn} {m : Team} {g : Group} (h : Ready i s t m g) (f : LaneCtx → Thread) (cost : Nat)
    {c : LaneCtx} (hc : c ∈ issueLanes t g) :
    (complete s t ((issueLanes t g).map (fun c => (c.lane, f c))) cost).threadAt t.core t.tr t.grp c.lane = some (f c) := by
  obtain ⟨x, n, hx⟩ := complete_eq s t ((issueLanes t g).map (fun c => (c.lane, f c))) cost
  rw [hx]
  have hteam : ∀ b : List Nat → List Nat, ({ (s.modGroup t.core t.tr t.grp (·.putThreads ((issueLanes t g).map (fun c => (c.lane, f c))))).modCore
      t.core (fun k => { k with busy := b k.busy }) with turn := x } : State).team t.core t.tr =
      (s.modGroup t.core t.tr t.grp (·.putThreads ((issueLanes t g).map (fun c => (c.lane, f c))))).team t.core t.tr :=
    fun b => State.team_busy _ _ b _ _
  rw [State.threadAt, hteam (fun b => b.set _ n), State.group_modGroup _ _ _ _ _ h.team h.group]
  have hmem := mem_issueLanes.1 hc
  have hlt : c.lane < g.threads.length := (List.getElem?_eq_some_iff.1 hmem.2.1).1
  refine Group.putThreads_at g _ ?_ (List.mem_map.2 ⟨c, hc, rfl⟩) hlt
  rw [List.map_map]
  exact issueLanes_nodup g h.nodup

end Sys2Proof.Machine
end

