-- ==== Sys2Proof/Laws/Simd.lean ====
section
/-!
SUPPORT. Simd: what an instruction that computes its lanes leaves, when it is ready: the shared operations simd, crossLane and commitOuts, and
the thread that Thread.finish makes.
-/

namespace Sys2Proof.Machine

/-! ### The thread after an instruction -/

theorem Thread.raise_eq (th : Thread) (fl : FFlags) (ipc at_ : Nat) :
    ∃ pc k, th.raise fl ipc at_ = { th with fflags := th.fflags ||| fl, ffpc := pc, ffat := k } := by
  unfold Thread.raise
  split
  · subst fl; exact ⟨th.ffpc, th.ffat, by cases th; simp⟩
  · exact ⟨_, _, rfl⟩

/-- A thread that has moved past an instruction, with flags and a generator word. -/
def Thread.moved (th : Thread) (len : Nat) (fl : FFlags) (pc : Word) (k : Nat) (sd : Word) : Thread :=
  { th with pc := th.pc + BitVec.ofNat 64 len, pos := th.pos + 1, unchecked := false, fflags := th.fflags ||| fl, ffpc := pc, ffat := k, seed := sd }

theorem Thread.cancel_advance_quiet {th : Thread} (h : th.pend = []) (rs ps : List Nat) (len : Nat) :
    (th.cancel rs ps).advance len = { th with pc := th.pc + BitVec.ofNat 64 len, pos := th.pos + 1, unchecked := false } := by
  cases th; simp_all [Thread.cancel, Thread.advance, Thread.landSome]

/-- The thread past an instruction, before its results land. -/
theorem Thread.past_eq {th : Thread} (h : th.pend = []) (i : Instr) (t : Turn) (id : Nat) (o : LaneOut) :
    ∃ pc k, th.past i t id o = th.moved t.len o.flags pc k (o.seed.getD th.seed) := by
  obtain ⟨pc, k, hr⟩ := Thread.raise_eq { th with pc := th.pc + BitVec.ofNat 64 t.len, pos := th.pos + 1, unchecked := false } o.flags t.ipc id
  exact ⟨pc, k, by rw [Thread.past, Thread.cancel_advance_quiet h, hr]; rfl⟩

theorem Thread.setPred_frame (th : Thread) (p : Nat) (v : Byte) : ∃ ps, th.setPred p v = { th with preds := ps } := by
  unfold Thread.setPred
  split
  · exact ⟨th.preds, by cases th; rfl⟩
  · exact ⟨_, rfl⟩

theorem Thread.putRegs_frame (rs : List (Nat × Option Word)) (th : Thread) :
    ∃ qs po, rs.foldl Thread.putReg th = { th with regs := qs, poison := po } := by
  induction rs generalizing th with
  | nil => exact ⟨th.regs, th.poison, by cases th; rfl⟩
  | cons e r ih =>
    obtain ⟨q, v⟩ := e
    cases v with
    | none => exact ih th
    | some v =>
      obtain ⟨qs, po, h⟩ := ih (th.setReg q v)
      exact ⟨qs, po, by rw [List.foldl_cons]; exact h⟩

theorem Thread.putPreds_frame (ps : List (Nat × Option Byte)) (th : Thread) : ∃ qs, ps.foldl Thread.putPred th = { th with preds := qs } := by
  induction ps generalizing th with
  | nil => exact ⟨th.preds, by cases th; rfl⟩
  | cons e r ih =>
    obtain ⟨q, v⟩ := e
    cases v with
    | none => exact ih th
    | some v =>
      obtain ⟨qs, hq⟩ := Thread.setPred_frame th q v
      obtain ⟨ps, h⟩ := ih { th with preds := qs }
      refine ⟨ps, ?_⟩
      rw [List.foldl_cons, show Thread.putPred th (q, some v) = th.setPred q v from rfl, hq]
      exact h

/-- Landing changes registers, poison marks and predicates only. -/
theorem Thread.land_frame (th : Thread) (p : Pending) : ∃ rs po ps, th.land p = { th with regs := rs, poison := po, preds := ps } := by
  obtain ⟨rs, po, hr⟩ := Thread.putRegs_frame p.regs th
  obtain ⟨ps, hp⟩ := Thread.putPreds_frame p.preds { th with regs := rs, poison := po }
  exact ⟨rs, po, ps, by rw [Thread.land, hr, hp]⟩

theorem Thread.land_pend (th : Thread) (p : Pending) : (th.land p).pend = th.pend := by
  obtain ⟨rs, po, ps, h⟩ := Thread.land_frame th p
  rw [h]

theorem Thread.land_ofOut (th : Thread) (id la : Nat) (fp : Bool) (o : LaneOut) :
    th.land { Pending.ofOut id la o with fp := fp } = th.land (Pending.ofOut id 0 o) := rfl

/-- With every result landed, a long-latency instruction leaves what one of fixed latency does. -/
theorem Thread.landAll_finish {th : Thread} (h : th.pend = []) (i : Instr) (t : Turn) (id : Nat) (late : Option Nat) (o : LaneOut) :
    (th.finish i t id late o).landAll = some (th.finish i t id none o) := by
  obtain ⟨pc, k, he⟩ := Thread.past_eq h i t id o
  have hm : (th.past i t id o).pend = [] := by rw [he]; exact h
  unfold Thread.finish
  generalize th.past i t id o = x at hm
  cases late with
  | none => exact Thread.landAll_quiet (by rw [Thread.receive, Thread.land_pend]; exact hm)
  | some la =>
    simp only [Thread.receive]
    split
    · next hemp =>
      simp only [Bool.and_eq_true, List.isEmpty_iff] at hemp
      rw [Thread.landAll_quiet hm]
      simp [Thread.land, Pending.ofOut, hemp.1, hemp.2]
    · have hk : ({ Pending.ofOut id la o with fp := floatLate i } : Pending).known = true := by simp [Pending.known, Pending.ofOut, List.all_map]
      simp only [Thread.landAll, hm, List.nil_append, List.all_cons, List.all_nil, hk, Bool.and_self, if_true, List.foldl_cons, List.foldl_nil]
      rw [Thread.land_ofOut, Thread.eta_pend hm]

/-! ### The shared operations -/

theorem nftLanes_quiet (ls : List LaneCtx) (outs : List LaneOut) (h : ∀ c ∈ ls, c.m.nft = false) : nftLanes ls outs = [] := by
  simp only [nftLanes, List.map_eq_nil_iff, List.filter_eq_nil_iff]
  intro e he
  simp [h e.1 (List.of_mem_zip he).1]

theorem zip_map_self {α β : Type} (ls : List α) (f : α → β) : ls.zip (ls.map f) = ls.map (fun c => (c, f c)) := by
  induction ls with
  | nil => rfl
  | cons a r ih => simp [ih]

/-- A ready instruction that computes each lane by itself completes, in every lane with what it computes there. -/
theorem simd_ready {i : Instr} {s : State} {t : Turn} {m : Team} {g : Group} (h : Ready i s t m g) (nft : Bool)
    (hn : nft = false ∨ ∀ c ∈ issueLanes t g, c.m.nft = false) (f : LaneCtx → LaneOut) :
    ∃ late, simd i s nft f =
      .next (complete s t ((issueLanes t g).map (fun c => (c.lane, c.th.finish i t s.tick late (f c)))) (slotCycles i)) := by
  have hb : (if nft then nftLanes (issueLanes t g) ((issueLanes t g).map f) else []) = [] := by
    rcases hn with rfl | hn
    · rfl
    · simp [nftLanes_quiet _ _ hn]
  refine ⟨if nft && (issueLanes t g).any (·.m.nft) then none else lookahead i, ?_⟩
  simp only [simd, issue_ready h, commitOuts, hb, List.isEmpty_nil, Bool.not_true, Bool.false_eq_true, if_false, zip_map_self, List.map_map]
  rfl

/-- What a completed instruction leaves: its issue set alone is touched, and every lane has the thread that it computed. -/
structure LanesDone (s s' : State) (t : Turn) (g : Group) (i : Instr) (f : LaneCtx → LaneOut) : Prop where
  touches : TouchesOnly s s' t
  lanes : ∀ c ∈ issueLanes t g, Outcome s' t c (c.th.finish i t s.tick none (f c))

theorem simd_done {i : Instr} {s : State} {t : Turn} {m : Team} {g : Group} (h : Ready i s t m g) (nft : Bool)
    (hn : nft = false ∨ ∀ c ∈ issueLanes t g, c.m.nft = false) (f : LaneCtx → LaneOut) :
    ∃ s', simd i s nft f = .next s' ∧ LanesDone s s' t g i f := by
  obtain ⟨late, he⟩ := simd_ready h nft hn f
  refine ⟨_, he, touches_complete _ _ _ _ ?_, ?_⟩
  · intro e hx
    obtain ⟨c, hc, rfl⟩ := List.mem_map.1 hx
    exact (mem_issueLanes.1 hc).1
  · intro c hc
    exact ⟨_, threadAt_complete h (fun c => c.th.finish i t s.tick late (f c)) _ hc, Thread.landAll_finish (h.quiet c hc).1 _ _ _ _ _⟩

theorem crossLane_done {i : Instr} {s : State} {t : Turn} {m : Team} {g : Group} (h : Ready i s t m g) (f : LaneCtx → LaneOut) :
    ∃ s', crossLane i s (fun ls => ls.map f) = .next s' ∧ LanesDone s s' t g i f := by
  have he : crossLane i s (fun ls => ls.map f) = simd i s false f := rfl
  rw [he]
  exact simd_done h false (.inl rfl) f

/-! ### Frames of a thread -/

theorem Thread.putRegs_other (rs : List (Nat × Word)) (th : Thread) {r : Nat} (h : r ∉ rs.map (·.1)) :
    ((rs.map (fun e => (e.1, some e.2))).foldl Thread.putReg th).reg r = th.reg r := by
  induction rs generalizing th with
  | nil => rfl
  | cons e q ih =>
    simp only [List.map_cons, List.mem_cons, not_or] at h
    simp only [List.map_cons, List.foldl_cons]
    rw [ih _ h.2]
    exact Thread.reg_setReg_of_ne _ _ h.1

theorem Thread.putPreds_other (ps : List (Nat × Byte)) (th : Thread) {p : Nat} (h : p ∉ ps.map (·.1)) :
    ((ps.map (fun e => (e.1, some e.2))).foldl Thread.putPred th).pred p = th.pred p := by
  induction ps generalizing th with
  | nil => rfl
  | cons e q ih =>
    simp only [List.map_cons, List.mem_cons, not_or] at h
    simp only [List.map_cons, List.foldl_cons]
    rw [ih _ h.2]
    exact Thread.pred_setPred_of_ne _ _ h.1

theorem Thread.land_reg (th : Thread) (p : Pending) (r : Nat) : (th.land p).reg r = (p.regs.foldl Thread.putReg th).reg r := by
  obtain ⟨ps, h⟩ := Thread.putPreds_frame p.preds (p.regs.foldl Thread.putReg th)
  rw [Thread.land, h]
  rfl

theorem Thread.land_pred (th : Thread) (p : Pending) (q : Nat) : (th.land p).pred q = (p.preds.foldl Thread.putPred th).pred q := by
  have h1 : ∀ (ps : List (Nat × Option Byte)) (a b : Thread), a.preds = b.preds →
      (ps.foldl Thread.putPred a).preds = (ps.foldl Thread.putPred b).preds := by
    intro ps
    induction ps with
    | nil => exact fun _ _ h => h
    | cons e r ih =>
      intro a b h
      refine ih _ _ ?_
      obtain ⟨k, v⟩ := e
      cases v with
      | none => exact h
      | some v => simp only [Thread.putPred, Thread.setPred]; split <;> simp [h]
  obtain ⟨rs, po, h⟩ := Thread.putRegs_frame p.regs th
  have := h1 p.preds (p.regs.foldl Thread.putReg th) th (by rw [h])
  simp only [Thread.land, Thread.pred, this]

theorem and_or_self (a b : FFlags) : (a ||| b) &&& a = a := by
  ext j hj
  simp only [BitVec.getElem_and, BitVec.getElem_or]
  cases a[j] <;> simp

/-- An instruction that writes only the registers and predicates its fields name leaves the rest of the thread (R69, R83). -/
theorem Thread.advanced_finish {th : Thread} (h : th.pend = []) (i : Instr) (t : Turn) (id : Nat) (o : LaneOut) (fs ps : List Nat)
    (hr : ∀ r ∈ o.regs.map (·.1), r ∈ fs.map th.ix) (hp : ∀ p ∈ o.preds.map (·.1), p ∈ ps) :
    Advanced fs ps t th (th.finish i t id none o) := by
  obtain ⟨pc, k, he⟩ := Thread.past_eq h i t id o
  rw [Thread.finish, he, Thread.receive]
  generalize o.seed.getD th.seed = sd
  obtain ⟨rs, po, qs, hl⟩ := Thread.land_frame (th.moved t.len o.flags pc k sd) (Pending.ofOut id 0 o)
  refine ⟨by rw [hl]; rfl, by rw [hl]; rfl, by rw [hl]; rfl, by rw [hl]; rfl, by rw [hl]; rfl, by rw [hl]; rfl, by rw [hl]; rfl,
    by rw [hl]; rfl, ?_, ?_⟩
  · intro r hnr
    rw [Thread.land_reg]
    exact Thread.putRegs_other _ _ (fun hc => hnr (hr r hc))
  · intro p hnp
    rw [Thread.land_pred]
    exact Thread.putPreds_other _ _ (fun hc => hnp (hp p hc))

/-- The generator's word after an instruction. -/
theorem Thread.seed_finish {th : Thread} (h : th.pend = []) (i : Instr) (t : Turn) (id : Nat) (o : LaneOut) :
    (th.finish i t id none o).seed = o.seed.getD th.seed := by
  obtain ⟨pc, k, he⟩ := Thread.past_eq h i t id o
  rw [Thread.finish, he, Thread.receive]
  obtain ⟨rs, po, qs, hl⟩ := Thread.land_frame (th.moved t.len o.flags pc k (o.seed.getD th.seed)) (Pending.ofOut id 0 o)
  rw [hl]
  rfl

/-- The flags after an instruction (R25, R51). -/
theorem Thread.raises_finish {th : Thread} (h : th.pend = []) (i : Instr) (t : Turn) (s : State) (o : LaneOut) :
    Raises s t o.flags th (th.finish i t s.tick none o) := by
  have he : (th.past i t s.tick o) =
      (Thread.raise { th with pc := th.pc + BitVec.ofNat 64 t.len, pos := th.pos + 1, unchecked := false } o.flags t.ipc s.tick).withSeed o.seed := by
    rw [Thread.past, Thread.cancel_advance_quiet h]
  rw [Thread.finish, Thread.receive]
  have hl : ((th.past i t s.tick o).land (Pending.ofOut s.tick 0 o)).fflags = (th.past i t s.tick o).fflags ∧
      ((th.past i t s.tick o).land (Pending.ofOut s.tick 0 o)).ffpc = (th.past i t s.tick o).ffpc := by
    obtain ⟨rs, po, qs, hl⟩ := Thread.land_frame (th.past i t s.tick o) (Pending.ofOut s.tick 0 o)
    rw [hl]; exact ⟨rfl, rfl⟩
  suffices hs : Raises s t o.flags th (th.past i t s.tick o) by
    exact ⟨hl.1.trans hs.flags, fun hz => hl.2.trans (hs.kept hz), fun h0 h1 => hl.2.trans (hs.set h0 h1)⟩
  rw [he]
  unfold Thread.raise
  by_cases hz : o.flags = 0
  · rw [if_pos hz]
    exact ⟨by simp [Thread.withSeed, hz], fun _ => rfl, fun h0 => absurd hz h0⟩
  · rw [if_neg hz]
    refine ⟨rfl, ?_, ?_⟩
    · rintro (h0 | ⟨h0, h1⟩)
      · exact absurd h0 hz
      · have h2 : ¬ s.tick < th.ffat := by omega
        have h3 : (th.fflags == 0) = false := by simpa using h0
        simp only [Thread.withSeed, h3, h2, decide_false, Bool.or_self, Bool.false_eq_true, if_false]
    · intro _ h0
      have h3 : (th.fflags == 0) = true := by simpa using h0
      simp only [Thread.withSeed, h3, Bool.true_or, if_true]

/-- The one register that a lane writes. -/
theorem Thread.reg_finish (th : Thread) (i : Instr) (t : Turn) (id : Nat) (o : LaneOut) {r : Nat} {v : Word}
    (ho : o.regs = [(r, v)]) : (th.finish i t id none o).reg r = v := by
  simp only [Thread.finish, Thread.receive]
  simp only [Thread.land_reg, Pending.ofOut, ho, List.map_cons, List.map_nil, List.foldl_cons, List.foldl_nil]
  exact Thread.reg_setReg_same _ _ _

/-- The one predicate that a lane writes; a write to p0 is discarded (R19). -/
theorem Thread.pred_finish (th : Thread) (i : Instr) (t : Turn) (id : Nat) (o : LaneOut) {p : Nat} {v : Byte}
    (hp : p ≠ 0) (ho : o.preds = [(p, v)]) : (th.finish i t id none o).pred p = v := by
  simp only [Thread.finish, Thread.receive]
  simp only [Thread.land_pred, Pending.ofOut, ho, List.map_cons, List.map_nil, List.foldl_cons, List.foldl_nil]
  exact Thread.pred_setPred_same _ _ hp

/-! ### Executes -/

/-- A step that touches one issue set only changes no byte of memory. -/
theorem TouchesOnly.sameMemory {s s' : State} {t : Turn} (h : TouchesOnly s s' t) : SameMemory s s' := by
  have hr : s'.far = s.far ∧ s'.dies = s.dies := by
    have := h.rest
    exact ⟨by rw [← this], by rw [← this]⟩
  have hc : ∀ c, (s'.core c).scratch = (s.core c).scratch ∧ (s'.core c).const = (s.core c).const := by
    intro c
    by_cases e : c = t.core
    · subst e
      have := h.core
      exact ⟨by rw [← this], by rw [← this]⟩
    · rw [h.cores c e]; exact ⟨rfl, rfl⟩
  refine ⟨fun a => by rw [hr.1], fun c a => by rw [(hc c).1], fun c a => by rw [(hc c).2], fun d a => by rw [State.die, State.die, hr.2]⟩

/-- What a lane computes, as a completed instruction leaves it. -/
theorem executes_of_done {i : Instr} {s s' : State} {t : Turn} {m : Team} {g : Group} (h : Ready i s t m g) (he : exec i s = .next s')
    {f : LaneCtx → LaneOut} (hd : LanesDone s s' t g i f) (fs ps : List Nat) (P : LaneCtx → Thread → Prop)
    (hr : ∀ c, ∀ r ∈ (f c).regs.map (·.1), r ∈ fs.map c.th.ix) (hp : ∀ c, ∀ p ∈ (f c).preds.map (·.1), p ∈ ps)
    (hP : ∀ c ∈ issueLanes t g, c.th.pend = [] → P c (c.th.finish i t s.tick none (f c))) : Executes i s t g fs ps P :=
  ⟨s', he, hd.touches, hd.touches.sameMemory, fun c hc =>
    ⟨_, hd.lanes c hc, Thread.advanced_finish (h.quiet c hc).1 i t s.tick (f c) fs ps (hr c) (hp c), hP c hc (h.quiet c hc).1⟩⟩

end Sys2Proof.Machine
end

