-- ==== Sys2Proof/Laws/Elements.lean ====
section
/-!
SUPPORT. Elements: sub-elements of words (R14, R18): what setEl, mapEls and the elements that an instruction forms leave in each of them.
-/

namespace Sys2Proof.Machine

/-! ### One element -/

theorem elem_eq (n : Nat) (x : Word) (k : Nat) : elem n x k = BitVec.ofNat n (el n x k) := by
  apply BitVec.eq_of_toNat_eq
  simp [elem, el, BitVec.extractLsb'_toNat, Nat.shiftRight_eq_div_pow]

theorem el_lt (n : Nat) (x : Word) (k : Nat) : el n x k < 2 ^ n := Nat.mod_lt _ (Nat.two_pow_pos n)

theorem elem_toNat (n : Nat) (x : Word) (k : Nat) : (elem n x k).toNat = el n x k := by
  rw [elem_eq, BitVec.toNat_ofNat, Nat.mod_eq_of_lt (el_lt n x k)]

theorem setEl_bit (w : Nat) (x : Word) (i v j : Nat) (hj : j < 64) :
    (setEl w x i v).getLsbD j = if w * i ≤ j ∧ j < w * i + w then (v % 2 ^ w).testBit (j - w * i) else x.getLsbD j := by
  have hx : x.toNat = 2 ^ (w * i) * (2 ^ w * (x.toNat / 2 ^ (w * i) / 2 ^ w) + el w x i) + x.toNat % 2 ^ (w * i) := by
    rw [el, Nat.div_add_mod, Nat.div_add_mod]
  have hd : x.toNat - el w x i * 2 ^ (w * i) + v % 2 ^ w * 2 ^ (w * i) =
      2 ^ (w * i) * (2 ^ w * (x.toNat / 2 ^ (w * i) / 2 ^ w) + v % 2 ^ w) + x.toNat % 2 ^ (w * i) := by
    have h2 : x.toNat - el w x i * 2 ^ (w * i) = 2 ^ (w * i) * (2 ^ w * (x.toNat / 2 ^ (w * i) / 2 ^ w)) + x.toNat % 2 ^ (w * i) := by
      rw [Nat.mul_add, Nat.mul_comm (2 ^ (w * i)) (el w x i)] at hx
      omega
    rw [h2, Nat.mul_add, Nat.mul_comm (v % 2 ^ w)]
    omega
  have hlo := Nat.mod_lt x.toNat (Nat.two_pow_pos (w * i))
  have hv := Nat.mod_lt v (Nat.two_pow_pos w)
  have he := el_lt w x i
  rw [setEl, BitVec.getLsbD_ofNat, hd, Nat.testBit_two_pow_mul_add _ hlo, Nat.testBit_two_pow_mul_add _ hv]
  have hxb : x.getLsbD j = x.toNat.testBit j := rfl
  rw [hxb]
  conv => rhs; rw [hx, Nat.testBit_two_pow_mul_add _ hlo, Nat.testBit_two_pow_mul_add _ he]
  simp only [hj, decide_true, Bool.true_and]
  by_cases h1 : j < w * i
  · have : ¬ (w * i ≤ j ∧ j < w * i + w) := by omega
    rw [if_neg this]; simp [h1]
  · by_cases h2 : j - w * i < w
    · have : w * i ≤ j ∧ j < w * i + w := by omega
      rw [if_pos this]; simp [h1, h2]
    · have : ¬ (w * i ≤ j ∧ j < w * i + w) := by omega
      rw [if_neg this]; simp [h1, h2]

theorem elem_bit (n : Nat) (x : Word) (k j : Nat) : (elem n x k).getLsbD j = (decide (j < n) && x.getLsbD (n * k + j)) := by
  simp [elem]

theorem elem_setEl_same (n : Nat) (x : Word) (k v : Nat) (h : n * k + n ≤ 64) : elem n (setEl n x k v) k = BitVec.ofNat n v := by
  apply BitVec.eq_of_getLsbD_eq
  intro j hj
  rw [elem_bit, setEl_bit _ _ _ _ _ (by omega), if_pos (by omega), BitVec.getLsbD_ofNat]
  simp [hj, Nat.testBit_mod_two_pow]

theorem elem_setEl_other (n : Nat) (x : Word) (i k v : Nat) (h : n * k + n ≤ 64) (hk : i ≠ k) : elem n (setEl n x i v) k = elem n x k := by
  apply BitVec.eq_of_getLsbD_eq
  intro j hj
  rw [elem_bit, elem_bit, setEl_bit _ _ _ _ _ (by omega), if_neg]
  rcases Nat.lt_or_gt_of_ne hk with h1 | h1
  · have := Nat.mul_le_mul_left n h1
    rw [Nat.mul_succ] at this
    omega
  · have := Nat.mul_le_mul_left n h1
    rw [Nat.mul_succ] at this
    omega

/-! ### Every active element -/

/-- A word with some of its elements set, one after another. -/
theorem elem_setEls (n : Nat) (es : List (Nat × Nat)) (x : Word) (k : Nat) (h : n * k + n ≤ 64) (hd : (es.map (·.1)).Nodup) :
    elem n (es.foldl (fun x e => setEl n x e.1 e.2) x) k =
      match es.find? (·.1 = k) with
      | some e => BitVec.ofNat n e.2
      | none => elem n x k := by
  induction es generalizing x with
  | nil => rfl
  | cons e r ih =>
    simp only [List.map_cons, List.nodup_cons] at hd
    rw [List.foldl_cons, ih _ hd.2, List.find?_cons]
    by_cases he : e.1 = k
    · have hn : r.find? (·.1 = k) = none := by
        rw [List.find?_eq_none]
        intro y hy hc
        exact hd.1 (List.mem_map.2 ⟨y, hy, by simpa [he] using hc⟩)
      simp only [hn, he, decide_true, elem_setEl_same n x k e.2 h]
    · simp only [he, decide_false]
      cases r.find? (·.1 = k) with
      | some y => rfl
      | none => exact elem_setEl_other n x e.1 k e.2 h he

/-- mapEls writes each active element and keeps the others (R14). -/
theorem elem_mapEls (S n : Nat) (guard : Byte) (d : Word) (f : Nat → Nat) (k : Nat) (hk : k < S) (h : n * S ≤ 64) :
    elem n (mapEls S n guard d f) k = if onEl guard S k then BitVec.ofNat n (f k) else elem n d k := by
  have hb : n * k + n ≤ 64 := by
    have := Nat.mul_le_mul_left n hk
    rw [Nat.mul_succ] at this
    omega
  have hfold : ∀ (l : List Nat) (x : Word), l.foldl (fun x i => if onEl guard S i then setEl n x i (f i) else x) x =
      ((l.filter (onEl guard S)).map (fun i => (i, f i))).foldl (fun x e => setEl n x e.1 e.2) x := by
    intro l
    induction l with
    | nil => intro x; rfl
    | cons a r ih =>
      intro x
      rw [List.foldl_cons, ih, List.filter_cons]
      split <;> simp_all
  have hnd : ((((List.range S).filter (onEl guard S)).map (fun i => (i, f i))).map (·.1)).Nodup := by
    rw [List.map_map]
    have : (fun (x : Nat) => x) = ((fun (e : Nat × Nat) => e.1) ∘ fun i => (i, f i)) := rfl
    rw [← this, List.map_id']
    exact List.nodup_range.filter _
  rw [mapEls, hfold, elem_setEls n _ d k hb hnd]
  by_cases ho : onEl guard S k
  · have hm : ((List.range S).filter (onEl guard S)).map (fun i => (i, f i)) ≠ [] := by
      intro hc
      have := List.mem_filter.2 ⟨List.mem_range.2 hk, ho⟩
      simp only [List.map_eq_nil_iff] at hc
      rw [hc] at this
      exact absurd this (by simp)
    have hf : (((List.range S).filter (onEl guard S)).map (fun i => (i, f i))).find? (·.1 = k) = some (k, f k) := by
      rw [List.find?_map]
      have : ((List.range S).filter (onEl guard S)).find? ((fun e : Nat × Nat => decide (e.1 = k)) ∘ fun i => (i, f i)) = some k := by
        cases hc : ((List.range S).filter (onEl guard S)).find? ((fun e : Nat × Nat => decide (e.1 = k)) ∘ fun i => (i, f i)) with
        | none =>
          rw [List.find?_eq_none] at hc
          exact absurd (hc k (List.mem_filter.2 ⟨List.mem_range.2 hk, ho⟩)) (by simp)
        | some y =>
          have := List.find?_some hc
          simp only [Function.comp_apply, decide_eq_true_eq] at this
          rw [this]
      rw [this]; rfl
    rw [hf, if_pos ho]
  · have hf : (((List.range S).filter (onEl guard S)).map (fun i => (i, f i))).find? (·.1 = k) = none := by
      rw [List.find?_eq_none]
      intro e he hc
      obtain ⟨i, hi, rfl⟩ := List.mem_map.1 he
      simp only [decide_eq_true_eq] at hc
      subst hc
      exact ho (List.mem_filter.1 hi).2
    rw [hf, if_neg ho]

/-- The widths of a width code fill a word (R84). -/
theorem wWidth_mul_wCount (w : Nat) (h : w ≤ 6) : wWidth w * wCount w ≤ 64 := by
  have : w = 0 ∨ w = 1 ∨ w = 2 ∨ w = 3 ∨ w = 4 ∨ w = 5 ∨ w = 6 := by omega
  rcases this with rfl | rfl | rfl | rfl | rfl | rfl | rfl <;> decide

/-- A single element is the whole word. -/
theorem elem_word (x : Word) : elem 64 x 0 = x := by
  apply BitVec.eq_of_getLsbD_eq
  intro j hj
  rw [elem_bit]
  simp [hj]

end Sys2Proof.Machine
end

