-- ==== Sys2Proof/Laws/PerInstr.lean ====
section
/-!
SUPPORT. PerInstr: one lemma per instruction for the statements that hold of every instruction as syntax.
-/

namespace Sys2Proof.Laws.WordCount

open Sys2Proof

/-- A well-formed instruction is encoded in as many words as R58 gives it: two for a pair, else one. A step of another agent is not well-formed. -/
def Statement (i : Instr) : Prop := i.wf = true → (encode i).length = i.words

theorem trl (x0 : BitVec 7) (x1 : BitVec 7) (x2 : BitVec 7) (x3 : BitVec 1) : Statement (.trl x0 x1 x2 x3) := fun _ => rfl
theorem iadd (x0 : BitVec 7) (x1 : BitVec 7) (x2 : BitVec 7) (x3 : BitVec 2) : Statement (.iadd x0 x1 x2 x3) := fun _ => rfl
theorem isub (x0 : BitVec 7) (x1 : BitVec 7) (x2 : BitVec 7) (x3 : BitVec 2) : Statement (.isub x0 x1 x2 x3) := fun _ => rfl
theorem imul (x0 : BitVec 7) (x1 : BitVec 7) (x2 : BitVec 7) (x3 : BitVec 2) : Statement (.imul x0 x1 x2 x3) := fun _ => rfl
theorem imulh (x0 : BitVec 7) (x1 : BitVec 7) (x2 : BitVec 7) (x3 : BitVec 2) : Statement (.imulh x0 x1 x2 x3) := fun _ => rfl
theorem imulhn (x0 : BitVec 7) (x1 : BitVec 7) (x2 : BitVec 7) (x3 : BitVec 2) : Statement (.imulhn x0 x1 x2 x3) := fun _ => rfl
theorem imad (x0 : BitVec 7) (x1 : BitVec 7) (x2 : BitVec 7) (x3 : BitVec 2) : Statement (.imad x0 x1 x2 x3) := fun _ => rfl
theorem imin (x0 : BitVec 7) (x1 : BitVec 7) (x2 : BitVec 7) (x3 : BitVec 2) : Statement (.imin x0 x1 x2 x3) := fun _ => rfl
theorem imax (x0 : BitVec 7) (x1 : BitVec 7) (x2 : BitVec 7) (x3 : BitVec 2) : Statement (.imax x0 x1 x2 x3) := fun _ => rfl
theorem iminn (x0 : BitVec 7) (x1 : BitVec 7) (x2 : BitVec 7) (x3 : BitVec 2) : Statement (.iminn x0 x1 x2 x3) := fun _ => rfl
theorem imaxn (x0 : BitVec 7) (x1 : BitVec 7) (x2 : BitVec 7) (x3 : BitVec 2) : Statement (.imaxn x0 x1 x2 x3) := fun _ => rfl
theorem shl (x0 : BitVec 7) (x1 : BitVec 7) (x2 : BitVec 7) (x3 : BitVec 2) : Statement (.shl x0 x1 x2 x3) := fun _ => rfl
theorem shr (x0 : BitVec 7) (x1 : BitVec 7) (x2 : BitVec 7) (x3 : BitVec 2) : Statement (.shr x0 x1 x2 x3) := fun _ => rfl
theorem sar (x0 : BitVec 7) (x1 : BitVec 7) (x2 : BitVec 7) (x3 : BitVec 2) : Statement (.sar x0 x1 x2 x3) := fun _ => rfl
theorem rol (x0 : BitVec 7) (x1 : BitVec 7) (x2 : BitVec 7) (x3 : BitVec 2) : Statement (.rol x0 x1 x2 x3) := fun _ => rfl
theorem ror (x0 : BitVec 7) (x1 : BitVec 7) (x2 : BitVec 7) (x3 : BitVec 2) : Statement (.ror x0 x1 x2 x3) := fun _ => rfl
theorem icmp (x0 : BitVec 3) (x1 : BitVec 4) (x2 : BitVec 7) (x3 : BitVec 7) (x4 : BitVec 2) : Statement (.icmp x0 x1 x2 x3 x4) := fun _ => rfl
theorem iaddc (x0 : BitVec 7) (x1 : BitVec 7) (x2 : BitVec 3) (x3 : BitVec 4) : Statement (.iaddc x0 x1 x2 x3) := fun _ => rfl
theorem isubb (x0 : BitVec 7) (x1 : BitVec 7) (x2 : BitVec 3) (x3 : BitVec 4) : Statement (.isubb x0 x1 x2 x3) := fun _ => rfl
theorem ineg (x0 : BitVec 7) (x1 : BitVec 7) (x2 : BitVec 1) (x3 : BitVec 3) : Statement (.ineg x0 x1 x2 x3) := fun _ => rfl
theorem iabs (x0 : BitVec 7) (x1 : BitVec 7) (x2 : BitVec 1) (x3 : BitVec 3) : Statement (.iabs x0 x1 x2 x3) := fun _ => rfl
theorem popc (x0 : BitVec 7) (x1 : BitVec 7) (x2 : BitVec 3) : Statement (.popc x0 x1 x2) := fun _ => rfl
theorem clz (x0 : BitVec 7) (x1 : BitVec 7) (x2 : BitVec 3) : Statement (.clz x0 x1 x2) := fun _ => rfl
theorem ctz (x0 : BitVec 7) (x1 : BitVec 7) (x2 : BitVec 3) : Statement (.ctz x0 x1 x2) := fun _ => rfl
theorem brev (x0 : BitVec 7) (x1 : BitVec 7) (x2 : BitVec 3) : Statement (.brev x0 x1 x2) := fun _ => rfl
theorem and (x0 : BitVec 7) (x1 : BitVec 7) (x2 : BitVec 7) : Statement (.and x0 x1 x2) := fun _ => rfl
theorem or (x0 : BitVec 7) (x1 : BitVec 7) (x2 : BitVec 7) : Statement (.or x0 x1 x2) := fun _ => rfl
theorem xor (x0 : BitVec 7) (x1 : BitVec 7) (x2 : BitVec 7) : Statement (.xor x0 x1 x2) := fun _ => rfl
theorem andn (x0 : BitVec 7) (x1 : BitVec 7) (x2 : BitVec 7) : Statement (.andn x0 x1 x2) := fun _ => rfl
theorem not (x0 : BitVec 7) (x1 : BitVec 7) : Statement (.not x0 x1) := fun _ => rfl
theorem mov (x0 : BitVec 7) (x1 : BitVec 7) : Statement (.mov x0 x1) := fun _ => rfl
theorem sel (x0 : BitVec 7) (x1 : BitVec 7) (x2 : BitVec 3) (x3 : BitVec 4) : Statement (.sel x0 x1 x2 x3) := fun _ => rfl
theorem prmb (x0 : BitVec 7) (x1 : BitVec 7) (x2 : BitVec 7) : Statement (.prmb x0 x1 x2) := fun _ => rfl
theorem bfxNatural (x0 : BitVec 7) (x1 : BitVec 7) (x2 : BitVec 7) : Statement (.bfxNatural x0 x1 x2) := fun _ => rfl
theorem bfxSigned (x0 : BitVec 7) (x1 : BitVec 7) (x2 : BitVec 7) : Statement (.bfxSigned x0 x1 x2) := fun _ => rfl
theorem bfi (x0 : BitVec 7) (x1 : BitVec 7) (x2 : BitVec 7) : Statement (.bfi x0 x1 x2) := fun _ => rfl
theorem lea (x0 : BitVec 7) (x1 : BitVec 7) (x2 : BitVec 7) (x3 : BitVec 2) : Statement (.lea x0 x1 x2 x3) := fun _ => rfl
theorem pand (x0 : BitVec 4) (x1 : BitVec 4) (x2 : BitVec 4) : Statement (.pand x0 x1 x2) := fun _ => rfl
theorem por (x0 : BitVec 4) (x1 : BitVec 4) (x2 : BitVec 4) : Statement (.por x0 x1 x2) := fun _ => rfl
theorem pxor (x0 : BitVec 4) (x1 : BitVec 4) (x2 : BitVec 4) : Statement (.pxor x0 x1 x2) := fun _ => rfl
theorem pnot (x0 : BitVec 4) (x1 : BitVec 4) : Statement (.pnot x0 x1) := fun _ => rfl
theorem p2g (x0 : BitVec 7) (x1 : BitVec 4) : Statement (.p2g x0 x1) := fun _ => rfl
theorem g2p (x0 : BitVec 4) (x1 : BitVec 7) : Statement (.g2p x0 x1) := fun _ => rfl
theorem wmacl (x0 : BitVec 7) (x1 : BitVec 7) (x2 : BitVec 7) (x3 : BitVec 3) : Statement (.wmacl x0 x1 x2 x3) := fun _ => rfl
theorem wmach (x0 : BitVec 7) (x1 : BitVec 7) (x2 : BitVec 7) (x3 : BitVec 3) : Statement (.wmach x0 x1 x2 x3) := fun _ => rfl
theorem iaddNatural (x0 : BitVec 7) (x1 : BitVec 7) (x2 : BitVec 7) (x3 : BitVec 2) : Statement (.iaddNatural x0 x1 x2 x3) := fun _ => rfl
theorem isubNatural (x0 : BitVec 7) (x1 : BitVec 7) (x2 : BitVec 7) (x3 : BitVec 2) : Statement (.isubNatural x0 x1 x2 x3) := fun _ => rfl
theorem imulNatural (x0 : BitVec 7) (x1 : BitVec 7) (x2 : BitVec 7) (x3 : BitVec 2) : Statement (.imulNatural x0 x1 x2 x3) := fun _ => rfl
theorem addi (x0 : BitVec 7) (x1 : BitVec 7) (x2 : BitVec 13) : Statement (.addi x0 x1 x2) := fun _ => rfl
theorem andImmediate (x0 : BitVec 7) (x1 : BitVec 7) (x2 : BitVec 11) : Statement (.andImmediate x0 x1 x2) := fun _ => rfl
theorem orImmediate (x0 : BitVec 7) (x1 : BitVec 7) (x2 : BitVec 11) : Statement (.orImmediate x0 x1 x2) := fun _ => rfl
theorem xorImmediate (x0 : BitVec 7) (x1 : BitVec 7) (x2 : BitVec 11) : Statement (.xorImmediate x0 x1 x2) := fun _ => rfl
theorem andnImmediate (x0 : BitVec 7) (x1 : BitVec 7) (x2 : BitVec 11) : Statement (.andnImmediate x0 x1 x2) := fun _ => rfl
theorem shlImmediate (x0 : BitVec 7) (x1 : BitVec 7) (x2 : BitVec 6) : Statement (.shlImmediate x0 x1 x2) := fun _ => rfl
theorem shrImmediate (x0 : BitVec 7) (x1 : BitVec 7) (x2 : BitVec 6) : Statement (.shrImmediate x0 x1 x2) := fun _ => rfl
theorem sarImmediate (x0 : BitVec 7) (x1 : BitVec 7) (x2 : BitVec 6) : Statement (.sarImmediate x0 x1 x2) := fun _ => rfl
theorem rolImmediate (x0 : BitVec 7) (x1 : BitVec 7) (x2 : BitVec 6) : Statement (.rolImmediate x0 x1 x2) := fun _ => rfl
theorem rorImmediate (x0 : BitVec 7) (x1 : BitVec 7) (x2 : BitVec 6) : Statement (.rorImmediate x0 x1 x2) := fun _ => rfl
theorem bfxImmediateNatural (x0 : BitVec 7) (x1 : BitVec 7) (x2 : BitVec 4) (x3 : BitVec 6) : Statement (.bfxImmediateNatural x0 x1 x2 x3) := fun _ => rfl
theorem bfxImmediateSigned (x0 : BitVec 7) (x1 : BitVec 7) (x2 : BitVec 4) (x3 : BitVec 6) : Statement (.bfxImmediateSigned x0 x1 x2 x3) := fun _ => rfl
theorem cmpi (x0 : BitVec 3) (x1 : BitVec 4) (x2 : BitVec 7) (x3 : BitVec 13) : Statement (.cmpi x0 x1 x2 x3) := fun _ => rfl
theorem lui (x0 : BitVec 7) (x1 : BitVec 20) : Statement (.lui x0 x1) := fun _ => rfl
theorem fadd (x0 : BitVec 7) (x1 : BitVec 7) (x2 : BitVec 7) (x3 : BitVec 2) : Statement (.fadd x0 x1 x2 x3) := fun _ => rfl
theorem fsub (x0 : BitVec 7) (x1 : BitVec 7) (x2 : BitVec 7) (x3 : BitVec 2) : Statement (.fsub x0 x1 x2 x3) := fun _ => rfl
theorem fmul (x0 : BitVec 7) (x1 : BitVec 7) (x2 : BitVec 7) (x3 : BitVec 2) : Statement (.fmul x0 x1 x2 x3) := fun _ => rfl
theorem ffma (x0 : BitVec 7) (x1 : BitVec 7) (x2 : BitVec 7) (x3 : BitVec 2) : Statement (.ffma x0 x1 x2 x3) := fun _ => rfl
theorem ffms (x0 : BitVec 7) (x1 : BitVec 7) (x2 : BitVec 7) (x3 : BitVec 2) : Statement (.ffms x0 x1 x2 x3) := fun _ => rfl
theorem fnma (x0 : BitVec 7) (x1 : BitVec 7) (x2 : BitVec 7) (x3 : BitVec 2) : Statement (.fnma x0 x1 x2 x3) := fun _ => rfl
theorem fabs (x0 : BitVec 7) (x1 : BitVec 7) (x2 : BitVec 2) : Statement (.fabs x0 x1 x2) := fun _ => rfl
theorem fneg (x0 : BitVec 7) (x1 : BitVec 7) (x2 : BitVec 2) : Statement (.fneg x0 x1 x2) := fun _ => rfl
theorem fcps (x0 : BitVec 7) (x1 : BitVec 7) (x2 : BitVec 7) (x3 : BitVec 2) : Statement (.fcps x0 x1 x2 x3) := fun _ => rfl
theorem fcmp (x0 : BitVec 3) (x1 : BitVec 4) (x2 : BitVec 7) (x3 : BitVec 7) (x4 : BitVec 2) : Statement (.fcmp x0 x1 x2 x3 x4) := fun _ => rfl
theorem fclass (x0 : BitVec 4) (x1 : BitVec 7) (x2 : BitVec 7) (x3 : BitVec 2) : Statement (.fclass x0 x1 x2 x3) := fun _ => rfl
theorem fmin (x0 : BitVec 7) (x1 : BitVec 7) (x2 : BitVec 7) (x3 : BitVec 2) : Statement (.fmin x0 x1 x2 x3) := fun _ => rfl
theorem fmax (x0 : BitVec 7) (x1 : BitVec 7) (x2 : BitVec 7) (x3 : BitVec 2) : Statement (.fmax x0 x1 x2 x3) := fun _ => rfl
theorem cvt (x0 : BitVec 7) (x1 : BitVec 7) (x2 : BitVec 3) (x3 : BitVec 4) (x4 : BitVec 4) : Statement (.cvt x0 x1 x2 x3 x4) := fun _ => rfl
theorem cvts (x0 : BitVec 7) (x1 : BitVec 7) (x2 : BitVec 3) (x3 : BitVec 4) (x4 : BitVec 4) : Statement (.cvts x0 x1 x2 x3 x4) := fun _ => rfl
theorem seed (x0 : BitVec 7) : Statement (.seed x0) := fun _ => rfl
theorem rnd (x0 : BitVec 7) : Statement (.rnd x0) := fun _ => rfl
theorem fdiv (x0 : BitVec 7) (x1 : BitVec 7) (x2 : BitVec 4) (x3 : BitVec 2) : Statement (.fdiv x0 x1 x2 x3) := fun _ => rfl
theorem fsqrt (x0 : BitVec 7) (x1 : BitVec 7) (x2 : BitVec 4) (x3 : BitVec 2) : Statement (.fsqrt x0 x1 x2 x3) := fun _ => rfl
theorem exp2 (x0 : BitVec 7) (x1 : BitVec 7) (x2 : BitVec 4) (x3 : BitVec 2) : Statement (.exp2 x0 x1 x2 x3) := fun _ => rfl
theorem log2 (x0 : BitVec 7) (x1 : BitVec 7) (x2 : BitVec 4) (x3 : BitVec 2) : Statement (.log2 x0 x1 x2 x3) := fun _ => rfl
theorem rcp (x0 : BitVec 7) (x1 : BitVec 7) (x2 : BitVec 4) (x3 : BitVec 2) : Statement (.rcp x0 x1 x2 x3) := fun _ => rfl
theorem rsq (x0 : BitVec 7) (x1 : BitVec 7) (x2 : BitVec 4) (x3 : BitVec 2) : Statement (.rsq x0 x1 x2 x3) := fun _ => rfl
theorem sin (x0 : BitVec 7) (x1 : BitVec 7) (x2 : BitVec 4) (x3 : BitVec 2) : Statement (.sin x0 x1 x2 x3) := fun _ => rfl
theorem cos (x0 : BitVec 7) (x1 : BitVec 7) (x2 : BitVec 4) (x3 : BitVec 2) : Statement (.cos x0 x1 x2 x3) := fun _ => rfl
theorem tanh (x0 : BitVec 7) (x1 : BitVec 7) (x2 : BitVec 4) (x3 : BitVec 2) : Statement (.tanh x0 x1 x2 x3) := fun _ => rfl
theorem sigm (x0 : BitVec 7) (x1 : BitVec 7) (x2 : BitVec 4) (x3 : BitVec 2) : Statement (.sigm x0 x1 x2 x3) := fun _ => rfl
theorem sftp (x0 : BitVec 7) (x1 : BitVec 7) (x2 : BitVec 4) (x3 : BitVec 2) : Statement (.sftp x0 x1 x2 x3) := fun _ => rfl
theorem idivSigned (x0 : BitVec 7) (x1 : BitVec 7) (x2 : BitVec 4) (x3 : BitVec 2) : Statement (.idivSigned x0 x1 x2 x3) := fun _ => rfl
theorem idivNatural (x0 : BitVec 7) (x1 : BitVec 7) (x2 : BitVec 4) (x3 : BitVec 2) : Statement (.idivNatural x0 x1 x2 x3) := fun _ => rfl
theorem iremSigned (x0 : BitVec 7) (x1 : BitVec 7) (x2 : BitVec 4) (x3 : BitVec 2) : Statement (.iremSigned x0 x1 x2 x3) := fun _ => rfl
theorem iremNatural (x0 : BitVec 7) (x1 : BitVec 7) (x2 : BitVec 4) (x3 : BitVec 2) : Statement (.iremNatural x0 x1 x2 x3) := fun _ => rfl
theorem shfl (x0 : BitVec 7) (x1 : BitVec 7) (x2 : BitVec 2) (x3 : BitVec 3) (x4 : BitVec 4) : Statement (.shfl x0 x1 x2 x3 x4) := fun _ => rfl
theorem bcast (x0 : BitVec 7) (x1 : BitVec 7) (x2 : BitVec 5) (x3 : BitVec 4) : Statement (.bcast x0 x1 x2 x3) := fun _ => rfl
theorem vote (x0 : BitVec 4) (x1 : BitVec 4) (x2 : BitVec 2) (x3 : BitVec 4) : Statement (.vote x0 x1 x2 x3) := fun _ => rfl
theorem voteBallot (x0 : BitVec 7) (x1 : BitVec 4) (x2 : BitVec 4) : Statement (.voteBallot x0 x1 x2) := fun _ => rfl
theorem matchLanes (x0 : BitVec 7) (x1 : BitVec 7) (x2 : BitVec 4) : Statement (.matchLanes x0 x1 x2) := fun _ => rfl
theorem reduce (x0 : BitVec 7) (x1 : BitVec 7) (x2 : BitVec 1) (x3 : BitVec 4) (x4 : BitVec 2) (x5 : BitVec 4) : Statement (.reduce x0 x1 x2 x3 x4 x5) := fun _ => rfl
theorem scanInclusive (x0 : BitVec 7) (x1 : BitVec 7) (x2 : BitVec 1) (x3 : BitVec 4) (x4 : BitVec 2) (x5 : BitVec 4) : Statement (.scanInclusive x0 x1 x2 x3 x4 x5) := fun _ => rfl
theorem scanExclusive (x0 : BitVec 7) (x1 : BitVec 7) (x2 : BitVec 1) (x3 : BitVec 4) (x4 : BitVec 2) (x5 : BitVec 4) : Statement (.scanExclusive x0 x1 x2 x3 x4 x5) := fun _ => rfl
theorem mma (x0 : BitVec 7) (x1 : BitVec 7) (x2 : BitVec 7) (x3 : BitVec 4) (x4 : BitVec 1) (x5 : BitVec 1) (x6 : BitVec 7) (x7 : BitVec 7) (x8 : BitVec 3) (x9 : BitVec 4) (x10 : BitVec 4) : Statement (.mma x0 x1 x2 x3 x4 x5 x6 x7 x8 x9 x10) := fun _ => rfl
theorem mmas (x0 : BitVec 7) (x1 : BitVec 7) (x2 : BitVec 7) (x3 : BitVec 4) (x4 : BitVec 1) (x5 : BitVec 1) (x6 : BitVec 7) (x7 : BitVec 7) (x8 : BitVec 3) (x9 : BitVec 4) (x10 : BitVec 4) (x11 : BitVec 2) : Statement (.mmas x0 x1 x2 x3 x4 x5 x6 x7 x8 x9 x10 x11) := fun _ => rfl
theorem mtrn (x0 : BitVec 7) (x1 : BitVec 7) (x2 : BitVec 4) (x3 : BitVec 3) (x4 : BitVec 4) : Statement (.mtrn x0 x1 x2 x3 x4) := fun _ => rfl
theorem mperm (x0 : BitVec 7) (x1 : BitVec 7) (x2 : BitVec 4) (x3 : BitVec 4) (x4 : BitVec 3) (x5 : BitVec 4) (x6 : BitVec 1) (x7 : BitVec 2) : Statement (.mperm x0 x1 x2 x3 x4 x5 x6 x7) := fun _ => rfl
theorem mrsum (x0 : BitVec 7) (x1 : BitVec 7) (x2 : BitVec 4) (x3 : BitVec 3) (x4 : BitVec 4) (x5 : BitVec 1) : Statement (.mrsum x0 x1 x2 x3 x4 x5) := fun _ => rfl
theorem mtok (x0 : BitVec 3) (x1 : BitVec 4) : Statement (.mtok x0 x1) := fun _ => rfl
theorem mvt (x0 : BitVec 7) (x1 : BitVec 7) (x2 : BitVec 7) (x3 : BitVec 4) (x4 : BitVec 1) (x5 : BitVec 1) (x6 : BitVec 4) (x7 : BitVec 4) (x8 : BitVec 13) : Statement (.mvt x0 x1 x2 x3 x4 x5 x6 x7 x8) := fun _ => rfl
theorem lds (x0 : BitVec 7) (x1 : BitVec 7) (x2 : BitVec 6) (x3 : BitVec 3) (x4 : BitVec 4) : Statement (.lds x0 x1 x2 x3 x4) := fun _ => rfl
theorem ldt (x0 : BitVec 7) (x1 : BitVec 7) (x2 : BitVec 6) (x3 : BitVec 3) (x4 : BitVec 4) : Statement (.ldt x0 x1 x2 x3 x4) := fun _ => rfl
theorem ldc (x0 : BitVec 7) (x1 : BitVec 7) (x2 : BitVec 6) (x3 : BitVec 3) (x4 : BitVec 4) : Statement (.ldc x0 x1 x2 x3 x4) := fun _ => rfl
theorem ldx (x0 : BitVec 7) (x1 : BitVec 7) (x2 : BitVec 6) (x3 : BitVec 3) (x4 : BitVec 4) : Statement (.ldx x0 x1 x2 x3 x4) := fun _ => rfl
theorem st (x0 : BitVec 7) (x1 : BitVec 7) (x2 : BitVec 6) (x3 : BitVec 3) (x4 : BitVec 2) (x5 : BitVec 1) : Statement (.st x0 x1 x2 x3 x4 x5) := fun _ => rfl
theorem atom (x0 : BitVec 7) (x1 : BitVec 7) (x2 : BitVec 7) (x3 : BitVec 4) (x4 : BitVec 2) (x5 : BitVec 2) (x6 : BitVec 4) (x7 : BitVec 4) (x8 : BitVec 6) : Statement (.atom x0 x1 x2 x3 x4 x5 x6 x7 x8) := fun _ => rfl
theorem fence (x0 : BitVec 3) (x1 : BitVec 2) : Statement (.fence x0 x1) := fun _ => rfl
theorem binit (x0 : BitVec 4) (x1 : BitVec 7) : Statement (.binit x0 x1) := fun _ => rfl
theorem barr (x0 : BitVec 7) (x1 : BitVec 1) (x2 : BitVec 4) : Statement (.barr x0 x1 x2) := fun _ => rfl
theorem bexp (x0 : BitVec 1) (x1 : BitVec 1) (x2 : BitVec 4) (x3 : BitVec 7) : Statement (.bexp x0 x1 x2 x3) := fun _ => rfl
theorem bwait (x0 : BitVec 4) (x1 : BitVec 7) (x2 : BitVec 1) (x3 : BitVec 4) : Statement (.bwait x0 x1 x2 x3) := fun _ => rfl
theorem bqry (x0 : BitVec 7) (x1 : BitVec 1) (x2 : BitVec 2) (x3 : BitVec 4) : Statement (.bqry x0 x1 x2 x3) := fun _ => rfl
theorem cbar (x0 : BitVec 7) (x1 : BitVec 1) (x2 : BitVec 4) : Statement (.cbar x0 x1 x2) := fun _ => rfl
theorem course (x0 : BitVec 4) : Statement (.course x0) := fun _ => rfl
theorem kwait (x0 : BitVec 7) (x1 : BitVec 2) (x2 : BitVec 2) : Statement (.kwait x0 x1 x2) := fun _ => rfl
theorem srinit (x0 : BitVec 4) (x1 : BitVec 2) (x2 : BitVec 7) (x3 : BitVec 2) (x4 : BitVec 3) : Statement (.srinit x0 x1 x2 x3 x4) := fun _ => rfl
theorem sracq (x0 : BitVec 4) (x1 : BitVec 7) (x2 : BitVec 2) : Statement (.sracq x0 x1 x2) := fun _ => rfl
theorem srput (x0 : BitVec 1) (x1 : BitVec 1) (x2 : BitVec 2) (x3 : BitVec 7) (x4 : BitVec 7) : Statement (.srput x0 x1 x2 x3 x4) := fun _ => rfl
theorem srget (x0 : BitVec 4) (x1 : BitVec 7) (x2 : BitVec 2) : Statement (.srget x0 x1 x2) := fun _ => rfl
theorem srrel (x0 : BitVec 1) (x1 : BitVec 2) (x2 : BitVec 7) : Statement (.srrel x0 x1 x2) := fun _ => rfl
theorem srclose (x0 : BitVec 2) : Statement (.srclose x0) := fun _ => rfl
theorem cvset (x0 : BitVec 7) (x1 : BitVec 3) : Statement (.cvset x0 x1) := fun _ => rfl
theorem sign (x0 : BitVec 3) : Statement (.sign x0) := fun _ => rfl
theorem cvwait (x0 : BitVec 3) : Statement (.cvwait x0) := fun _ => rfl
theorem lock (x0 : BitVec 7) (x1 : BitVec 4) : Statement (.lock x0 x1) := fun _ => rfl
theorem unlock (x0 : BitVec 7) : Statement (.unlock x0) := fun _ => rfl
theorem cpost (x0 : BitVec 7) (x1 : BitVec 7) (x2 : BitVec 4) : Statement (.cpost x0 x1 x2) := fun _ => rfl
theorem tpost (x0 : BitVec 7) : Statement (.tpost x0) := fun _ => rfl
theorem freeze (x0 : BitVec 7) (x1 : BitVec 4) : Statement (.freeze x0 x1) := fun _ => rfl
theorem thaw (x0 : BitVec 7) (x1 : BitVec 4) : Statement (.thaw x0 x1) := fun _ => rfl
theorem rgqry (x0 : BitVec 7) (x1 : BitVec 7) (x2 : BitVec 4) : Statement (.rgqry x0 x1 x2) := fun _ => rfl
theorem gwqry (x0 : BitVec 7) (x1 : BitVec 7) (x2 : BitVec 4) : Statement (.gwqry x0 x1 x2) := fun _ => rfl
theorem br (x0 : BitVec 4) (x1 : BitVec 1) (x2 : BitVec 20) : Statement (.br x0 x1 x2) := fun _ => rfl
theorem call (x0 : BitVec 4) (x1 : BitVec 1) (x2 : BitVec 20) : Statement (.call x0 x1 x2) := fun _ => rfl
theorem nop : Statement (.nop) := fun _ => rfl
theorem yield : Statement (.yield) := fun _ => rfl
theorem exit : Statement (.exit) := fun _ => rfl
theorem ret : Statement (.ret) := fun _ => rfl
theorem retTrap : Statement (.retTrap) := fun _ => rfl
theorem jmpr (x0 : BitVec 7) : Statement (.jmpr x0) := fun _ => rfl
theorem trap (x0 : BitVec 16) : Statement (.trap x0) := fun _ => rfl
theorem tfence : Statement (.tfence) := fun _ => rfl
theorem bkpt : Statement (.bkpt) := fun _ => rfl
theorem win (x0 : BitVec 5) : Statement (.win x0) := fun _ => rfl
theorem srd (x0 : BitVec 7) (x1 : BitVec 6) : Statement (.srd x0 x1) := fun _ => rfl
theorem swr (x0 : BitVec 7) (x1 : BitVec 6) : Statement (.swr x0 x1) := fun _ => rfl
theorem fstc (x0 : BitVec 7) : Statement (.fstc x0) := fun _ => rfl
theorem issueTurn (x0 : Nat) (x1 : Nat) : Statement (.issueTurn x0 x1) := fun h => (Bool.false_ne_true h).elim
theorem longLatencyWriteLands (x0 : Nat) (x1 : Nat) (x2 : Nat) (x3 : Nat) (x4 : Nat) : Statement (.longLatencyWriteLands x0 x1 x2 x3 x4) := fun h => (Bool.false_ne_true h).elim
theorem barrierWaiterWake (x0 : Nat) (x1 : Nat) (x2 : Nat) : Statement (.barrierWaiterWake x0 x1 x2) := fun h => (Bool.false_ne_true h).elim
theorem cbarArrival (x0 : Nat) (x1 : Nat) : Statement (.cbarArrival x0 x1) := fun h => (Bool.false_ne_true h).elim
theorem courseCompletion (x0 : Nat) : Statement (.courseCompletion x0) := fun h => (Bool.false_ne_true h).elim
theorem ringClosed (x0 : Nat) (x1 : Nat) (x2 : Nat) : Statement (.ringClosed x0 x1 x2) := fun h => (Bool.false_ne_true h).elim
theorem matrixOpReady (x0 : Nat) (x1 : Nat) (x2 : Nat) : Statement (.matrixOpReady x0 x1 x2) := fun h => (Bool.false_ne_true h).elim
theorem mtokTakesEffect (x0 : Nat) (x1 : Nat) (x2 : Nat) : Statement (.mtokTakesEffect x0 x1 x2) := fun h => (Bool.false_ne_true h).elim
theorem engineExecute (x0 : Nat) : Statement (.engineExecute x0) := fun h => (Bool.false_ne_true h).elim
theorem matrixResultLands (x0 : Nat) : Statement (.matrixResultLands x0) := fun h => (Bool.false_ne_true h).elim
theorem lockGrant (x0 : Nat) (x1 : Nat) : Statement (.lockGrant x0 x1) := fun h => (Bool.false_ne_true h).elim
theorem tileBankAccess (x0 : Nat) (x1 : Nat) : Statement (.tileBankAccess x0 x1) := fun h => (Bool.false_ne_true h).elim
theorem peerPortAccess (x0 : Nat) (x1 : Nat) : Statement (.peerPortAccess x0 x1) := fun h => (Bool.false_ne_true h).elim
theorem hodAcceptPacket (x0 : Nat) : Statement (.hodAcceptPacket x0) := fun h => (Bool.false_ne_true h).elim
theorem ringSlotRead (x0 : Nat) (x1 : Nat) : Statement (.ringSlotRead x0 x1) := fun h => (Bool.false_ne_true h).elim
theorem inboxCommand (x0 : Nat) : Statement (.inboxCommand x0) := fun h => (Bool.false_ne_true h).elim
theorem copy (x0 : Nat) (x1 : Nat) (x2 : Nat) : Statement (.copy x0 x1 x2) := fun h => (Bool.false_ne_true h).elim
theorem gather (x0 : Nat) (x1 : Nat) (x2 : Nat) : Statement (.gather x0 x1 x2) := fun h => (Bool.false_ne_true h).elim
theorem scatter (x0 : Nat) (x1 : Nat) (x2 : Nat) : Statement (.scatter x0 x1 x2) := fun h => (Bool.false_ne_true h).elim
theorem scatred (x0 : Nat) (x1 : Nat) (x2 : Nat) : Statement (.scatred x0 x1 x2) := fun h => (Bool.false_ne_true h).elim
theorem fill (x0 : Nat) (x1 : Nat) (x2 : Nat) : Statement (.fill x0 x1 x2) := fun h => (Bool.false_ne_true h).elim
theorem gwbind (x0 : Nat) (x1 : Nat) : Statement (.gwbind x0 x1) := fun h => (Bool.false_ne_true h).elim
theorem gwfree (x0 : Nat) (x1 : Nat) : Statement (.gwfree x0 x1) := fun h => (Bool.false_ne_true h).elim
theorem prefetch (x0 : Nat) (x1 : Nat) (x2 : Nat) : Statement (.prefetch x0 x1 x2) := fun h => (Bool.false_ne_true h).elim
theorem atomic (x0 : Nat) (x1 : Nat) : Statement (.atomic x0 x1) := fun h => (Bool.false_ne_true h).elim
theorem fenceCommand (x0 : Nat) (x1 : Nat) : Statement (.fenceCommand x0 x1) := fun h => (Bool.false_ne_true h).elim
theorem commandCompletion (x0 : Nat) (x1 : Nat) : Statement (.commandCompletion x0 x1) := fun h => (Bool.false_ne_true h).elim
theorem pageFaultResolution (x0 : Nat) (x1 : Nat) : Statement (.pageFaultResolution x0 x1) := fun h => (Bool.false_ne_true h).elim
theorem holdTimeExpiry (x0 : Nat) (x1 : Nat) : Statement (.holdTimeExpiry x0 x1) := fun h => (Bool.false_ne_true h).elim
theorem commandResume (x0 : Nat) (x1 : Nat) : Statement (.commandResume x0 x1) := fun h => (Bool.false_ne_true h).elim
theorem commandAbandon (x0 : Nat) (x1 : Nat) : Statement (.commandAbandon x0 x1) := fun h => (Bool.false_ne_true h).elim
theorem networkAcknowledgement (x0 : Nat) (x1 : Nat) : Statement (.networkAcknowledgement x0 x1) := fun h => (Bool.false_ne_true h).elim
theorem sendRetryTimeout (x0 : Nat) (x1 : Nat) : Statement (.sendRetryTimeout x0 x1) := fun h => (Bool.false_ne_true h).elim
theorem networkPacketReceive (x0 : Nat) (x1 : Nat) (x2 : Nat) (x3 : Nat) (x4 : Nat) (x5 : Nat) (x6 : Nat) (x7 : Bytes) : Statement (.networkPacketReceive x0 x1 x2 x3 x4 x5 x6 x7) := fun h => (Bool.false_ne_true h).elim
theorem peerRemoteRequest (x0 : Nat) (x1 : Nat) (x2 : Nat) (x3 : Nat) (x4 : Nat) (x5 : Nat) (x6 : Nat) (x7 : Nat) (x8 : Nat) (x9 : Bytes) : Statement (.peerRemoteRequest x0 x1 x2 x3 x4 x5 x6 x7 x8 x9) := fun h => (Bool.false_ne_true h).elim
theorem remoteWriteRefusal (x0 : Nat) (x1 : Nat) (x2 : Nat) : Statement (.remoteWriteRefusal x0 x1 x2) := fun h => (Bool.false_ne_true h).elim
theorem sectorFillComplete (x0 : Nat) (x1 : Nat) : Statement (.sectorFillComplete x0 x1) := fun h => (Bool.false_ne_true h).elim
theorem l2Eviction (x0 : Nat) (x1 : Nat) : Statement (.l2Eviction x0 x1) := fun h => (Bool.false_ne_true h).elim
theorem launchAccept (x0 : Nat) : Statement (.launchAccept x0) := fun h => (Bool.false_ne_true h).elim
theorem gangBind (x0 : Nat) : Statement (.gangBind x0) := fun h => (Bool.false_ne_true h).elim
theorem bindRecordValid (x0 : Nat) (x1 : Nat) : Statement (.bindRecordValid x0 x1) := fun h => (Bool.false_ne_true h).elim
theorem bindRecordGo (x0 : Nat) : Statement (.bindRecordGo x0) := fun h => (Bool.false_ne_true h).elim
theorem continuationRecordArrival (x0 : Nat) : Statement (.continuationRecordArrival x0) := fun h => (Bool.false_ne_true h).elim
theorem palletTimerExpiry (x0 : Nat) (x1 : Nat) (x2 : Nat) : Statement (.palletTimerExpiry x0 x1 x2) := fun h => (Bool.false_ne_true h).elim
theorem watchdogExpiry (x0 : Nat) : Statement (.watchdogExpiry x0) := fun h => (Bool.false_ne_true h).elim
theorem taskFailure (x0 : Nat) : Statement (.taskFailure x0) := fun h => (Bool.false_ne_true h).elim
theorem retire (x0 : Nat) (x1 : Nat) (x2 : Nat) : Statement (.retire x0 x1 x2) := fun h => (Bool.false_ne_true h).elim
theorem teamStateRelease (x0 : Nat) (x1 : Nat) : Statement (.teamStateRelease x0 x1) := fun h => (Bool.false_ne_true h).elim
theorem launchEnd (x0 : Nat) : Statement (.launchEnd x0) := fun h => (Bool.false_ne_true h).elim
theorem nodeEnd (x0 : Nat) (x1 : Nat) : Statement (.nodeEnd x0 x1) := fun h => (Bool.false_ne_true h).elim
theorem discardReport (x0 : Nat) : Statement (.discardReport x0) := fun h => (Bool.false_ne_true h).elim
theorem launchQueueEntryWrite (x0 : Nat) (x1 : Nat) (x2 : BitVec 256) : Statement (.launchQueueEntryWrite x0 x1 x2) := fun h => (Bool.false_ne_true h).elim
theorem unfreeze (x0 : Nat) (x1 : Nat) : Statement (.unfreeze x0 x1) := fun h => (Bool.false_ne_true h).elim
theorem hodQueueEntryWrite (x0 : Nat) (x1 : Nat) (x2 : BitVec 128) : Statement (.hodQueueEntryWrite x0 x1 x2) := fun h => (Bool.false_ne_true h).elim
theorem create (x0 : Nat) : Statement (.create x0) := fun h => (Bool.false_ne_true h).elim
theorem contextKeyDerived (x0 : Nat) : Statement (.contextKeyDerived x0) := fun h => (Bool.false_ne_true h).elim
theorem teardown (x0 : Nat) : Statement (.teardown x0) := fun h => (Bool.false_ne_true h).elim
theorem teardownComplete (x0 : Nat) : Statement (.teardownComplete x0) := fun h => (Bool.false_ne_true h).elim
theorem setregion (x0 : Nat) : Statement (.setregion x0) := fun h => (Bool.false_ne_true h).elim
theorem mailboxFreeze (x0 : Nat) : Statement (.mailboxFreeze x0) := fun h => (Bool.false_ne_true h).elim
theorem mailboxThaw (x0 : Nat) : Statement (.mailboxThaw x0) := fun h => (Bool.false_ne_true h).elim
theorem inval (x0 : Nat) : Statement (.inval x0) := fun h => (Bool.false_ne_true h).elim
theorem discard (x0 : Nat) : Statement (.discard x0) := fun h => (Bool.false_ne_true h).elim
theorem repart (x0 : Nat) : Statement (.repart x0) := fun h => (Bool.false_ne_true h).elim
theorem repartTakesEffect (x0 : Nat) : Statement (.repartTakesEffect x0) := fun h => (Bool.false_ne_true h).elim
theorem freezeDrainEnd (x0 : Nat) (x1 : Nat) : Statement (.freezeDrainEnd x0 x1) := fun h => (Bool.false_ne_true h).elim
theorem peerThawAck (x0 : Nat) (x1 : Nat) (x2 : Nat) : Statement (.peerThawAck x0 x1 x2) := fun h => (Bool.false_ne_true h).elim
theorem thawlimitExpiry (x0 : Nat) (x1 : Nat) : Statement (.thawlimitExpiry x0 x1) := fun h => (Bool.false_ne_true h).elim
theorem thawCollectionEnd (x0 : Nat) (x1 : Nat) : Statement (.thawCollectionEnd x0 x1) := fun h => (Bool.false_ne_true h).elim
theorem gclSessionOpen (x0 : Nat) : Statement (.gclSessionOpen x0) := fun h => (Bool.false_ne_true h).elim
theorem gclRead (x0 : Nat) (x1 : Nat) (x2 : Nat) (x3 : Nat) : Statement (.gclRead x0 x1 x2 x3) := fun h => (Bool.false_ne_true h).elim
theorem gclWrite (x0 : Nat) (x1 : Nat) (x2 : Nat) (x3 : Bytes) : Statement (.gclWrite x0 x1 x2 x3) := fun h => (Bool.false_ne_true h).elim
theorem gclAtomic (x0 : Nat) (x1 : Nat) (x2 : Nat) (x3 : Nat) (x4 : Nat) (x5 : Nat) (x6 : Nat) : Statement (.gclAtomic x0 x1 x2 x3 x4 x5 x6) := fun h => (Bool.false_ne_true h).elim
theorem gclFence (x0 : Nat) (x1 : Nat) : Statement (.gclFence x0 x1) := fun h => (Bool.false_ne_true h).elim
theorem gclWindowWrite (x0 : Nat) (x1 : Nat) (x2 : BitVec 128) : Statement (.gclWindowWrite x0 x1 x2) := fun h => (Bool.false_ne_true h).elim
theorem registerWrite (x0 : Nat) (x1 : Nat) (x2 : Nat) : Statement (.registerWrite x0 x1 x2) := fun h => (Bool.false_ne_true h).elim
theorem sharekey (x0 : Nat) : Statement (.sharekey x0) := fun h => (Bool.false_ne_true h).elim
theorem dropkey (x0 : Nat) : Statement (.dropkey x0) := fun h => (Bool.false_ne_true h).elim
theorem attest (x0 : Nat) : Statement (.attest x0) := fun h => (Bool.false_ne_true h).elim
theorem getcert (x0 : Nat) : Statement (.getcert x0) := fun h => (Bool.false_ne_true h).elim
theorem stagefw (x0 : Nat) : Statement (.stagefw x0) := fun h => (Bool.false_ne_true h).elim
theorem patrolScrub (x0 : Nat) (x1 : Nat) (x2 : Nat) : Statement (.patrolScrub x0 x1 x2) := fun h => (Bool.false_ne_true h).elim
theorem containment (x0 : Nat) : Statement (.containment x0) := fun h => (Bool.false_ne_true h).elim
theorem unitFence (x0 : Nat) (x1 : Nat) : Statement (.unitFence x0 x1) := fun h => (Bool.false_ne_true h).elim
theorem linkFlitRetry (x0 : Nat) : Statement (.linkFlitRetry x0) := fun h => (Bool.false_ne_true h).elim
theorem schedulerTakeover : Statement (.schedulerTakeover) := fun h => (Bool.false_ne_true h).elim
theorem dieFault (x0 : Nat) : Statement (.dieFault x0) := fun h => (Bool.false_ne_true h).elim
theorem dieTestComplete (x0 : Nat) (x1 : Bool) : Statement (.dieTestComplete x0 x1) := fun h => (Bool.false_ne_true h).elim
theorem dieReadmit (x0 : Nat) : Statement (.dieReadmit x0) := fun h => (Bool.false_ne_true h).elim
theorem coldReset : Statement (.coldReset) := fun h => (Bool.false_ne_true h).elim
theorem warmReset : Statement (.warmReset) := fun h => (Bool.false_ne_true h).elim
theorem powerStateRequest (x0 : Nat) (x1 : Nat) : Statement (.powerStateRequest x0 x1) := fun h => (Bool.false_ne_true h).elim
theorem p1Entry : Statement (.p1Entry) := fun h => (Bool.false_ne_true h).elim
theorem p1Exit : Statement (.p1Exit) := fun h => (Bool.false_ne_true h).elim
theorem powercap (x0 : Nat) (x1 : Nat) : Statement (.powercap x0 x1) := fun h => (Bool.false_ne_true h).elim
theorem thermalStep (x0 : Nat) (x1 : Nat) : Statement (.thermalStep x0 x1) := fun h => (Bool.false_ne_true h).elim
theorem thermalShutdown : Statement (.thermalShutdown) := fun h => (Bool.false_ne_true h).elim
theorem softError (x0 : Nat) (x1 : Nat) (x2 : Nat) (x3 : Bool) : Statement (.softError x0 x1 x2 x3) := fun h => (Bool.false_ne_true h).elim
theorem remoteReadRefusal (x0 : Nat) (x1 : Nat) : Statement (.remoteReadRefusal x0 x1) := fun h => (Bool.false_ne_true h).elim

end Sys2Proof.Laws.WordCount
end

