-- ==== Sys2Proof/Tests/Slice0.lean ====
section
/-!
SUPPORT. Slice0: the model's own tests. Expected values are the spec's worked examples or are computed by hand from it: words from the tables of
R56 to R58 and R85 to R188, results from the rules named. A theorem `wit_<statement>_<k>` gives operands and a state that meet the hypotheses of
clause k of a statement together.
-/

namespace Sys2Proof.Tests

open Sys2Proof.Machine

-- Each theorem is checked before the next one begins.
set_option Elab.async false

/-! ### Ill-formed terms (R60, R61) -/

/-- Width code 4 with a carry is unassigned (R90). -/
theorem test_illformed_word_code : (Instr.iaddc 0 0 4 0).wf = false := by decide
/-- FP64 takes no scales (R136). -/
theorem test_illformed_desc_code : (Instr.mma 0 0 0 0 1 0 0 0 0 1 1).wf = false := by decide
/-- An accumulator base that is not a multiple of 4 (R135). -/
theorem test_illformed_field : (Instr.mma 2 0 0 0 0 0 0 0 0 5 5).wf = false := by decide
/-- A step of another agent has no words. -/
theorem test_illformed_event : (Instr.coldReset).wf = false := by decide

/-! ### Words written out (R56 to R58, R72 to R74) -/

/-- TRL: 00001 1111111 1111111 1111111 0 00000; and with ALL, naming nothing. -/
theorem test_decode_trl : decodeWords 0x0FFFFFC0 0 = .ok (.trl 127 127 127 0) ∧ decodeWords 0x0FFFFFE0 0 = .ok (.trl 127 127 127 1) := by decide
/-- INT: 00011 D A B FN, FN = 0000 w; the natural form is INT2 FN 11 00 ww. -/
theorem test_decode_int : decodeWords 0x186040C1 0 = .ok (.iadd 6 2 3 1) ∧ decodeWords 0x206040F1 0 = .ok (.iaddNatural 6 2 3 1) := by decide
/-- INT2: PXOR p8, p8, p8; WMACL g20, g10, g12, p8; IADDC.n64 g22, g9, p8. -/
theorem test_decode_int2 : decodeWords 0x2081021A 0 = .ok (.pxor 8 8 8) ∧ decodeWords 0x21414320 0 = .ok (.wmacl 20 10 12 0) ∧
    decodeWords 0x21612200 0 = .ok (.iaddc 22 9 0 8) := by decide
/-- Immediates: ADDI g3, g3, -1; LUI g4, 0x12345; CMPI.gt.s64 p3, g3, 0. -/
theorem test_decode_immediate : decodeWords 0x28307FFF 0 = .ok (.addi 3 3 0x1FFF) ∧ decodeWords 0x48412345 0 = .ok (.lui 4 0x12345) ∧
    decodeWords 0x44306000 0 = .ok (.cmpi 4 3 3 0) := by decide
/-- FPA and FPC: FFMA.f32 g10, g11, g12. -/
theorem test_decode_float : decodeWords 0x50A1630D 0 = .ok (.ffma 10 11 12 1) := by decide
/-- CVT.e4m3.f32 g4, g5, 2. -/
theorem test_decode_cvt : decodeWords 0x6040A885 0 = .ok (.cvt 4 5 2 2 5) := by decide
/-- SFU: FDIV.f64 g8, g9 ahead 4. -/
theorem test_decode_sfu : decodeWords 0x68812010 0 = .ok (.fdiv 8 9 4 0) := by decide
/-- XL: SHFL.xor.n32 g5, g6 ahead 2. -/
theorem test_decode_xl : decodeWords 0x7050C648 0 = .ok (.shfl 5 6 3 1 2) := by decide
/-- MMA and its descriptor; MVT and its descriptor; a descriptor without its tag (R61 item 5). -/
theorem test_decode_matrix : decodeWords 0x79000108 0xE8000554 = .ok (.mma 16 0 4 2 0 0 0 0 1 5 5) ∧
    decodeWords 0x79000108 0x00000554 = .illegal 1 := by decide
/-- MVT. -/
theorem test_decode_mvt : decodeWords 0x91414081 0xE8400000 = .ok (.mvt 20 10 2 0 0 1 0 8 0) := by decide
/-- Loads and stores: LDS, LDT.64 g9, [g4+16] ahead 2, LDX.64, ST.32.tile [g4+8], g6, ST.64.scr.zx [g2+0]. -/
theorem test_decode_memory : decodeWords 0x98504032 0 = .ok (.lds 5 2 0 3 2) ∧ decodeWords 0xA0908132 0 = .ok (.ldt 9 4 2 3 2) ∧
    decodeWords 0xB0806034 0 = .ok (.ldx 8 3 0 3 4) ∧ decodeWords 0xB8608124 0 = .ok (.st 6 4 2 2 1 0) ∧
    decodeWords 0xB8004031 0 = .ok (.st 0 2 0 3 0 1) := by decide
/-- ATOM.tile.add.s32 g7, [g4+8], g9. -/
theorem test_decode_atom : decodeWords 0xC0708240 0xEA320080 = .ok (.atom 7 4 9 0 0 1 1 9 2) := by decide
/-- SYNC: FENCE.rel.die, BWAIT p1, b4, g5, BARR g5, b3, KWAIT.copy 0. -/
theorem test_decode_sync : decodeWords 0xC8E00000 0 = .ok (.fence 3 2) ∧ decodeWords 0xC810A104 0 = .ok (.bwait 1 5 0 4) ∧
    decodeWords 0xC85000C2 0 = .ok (.barr 5 0 3) ∧ decodeWords 0xC8000008 0 = .ok (.kwait 0 0 0) := by decide
/-- CMD: CPOST g24, g16 ahead 2, FREEZE b2, g4, THAW b2, g4, RGQRY g5, g7. -/
theorem test_decode_cmd : decodeWords 0xD1820008 0 = .ok (.cpost 24 16 2) ∧ decodeWords 0xD0008082 0 = .ok (.freeze 4 2) ∧
    decodeWords 0xD0009082 0 = .ok (.thaw 4 2) ∧ decodeWords 0xD050E003 0 = .ok (.rgqry 5 7 0) := by decide
/-- Control: CALL 5, EXIT, RET, and FN 13 of CTL, which is unassigned. -/
theorem test_decode_control : decodeWords 0xD8100005 0 = .ok (.call 0 0 5) ∧ decodeWords 0xE0000002 0 = .ok .exit ∧
    decodeWords 0xE0000003 0 = .ok .ret ∧ decodeWords 0xE000000D 0 = .illegal 0 := by decide
/-- A prefix (00010 0 p1 0 RND SAT FTZ NFT) before IADD, and before a load, which it does not fit (R72). -/
theorem test_decode_prefix : decodeFetch 0x10400000 0x186040C1 0 = .ok ⟨some (.arith 1 0 0 0 0 0), .iadd 6 2 3 1, 2⟩ ∧
    decodeFetch 0x10400000 0x98504032 0 = .error 2 := by decide

/-! ### Small states -/

/-- A thread of lane l at the first word of the code region, with some registers. -/
abbrev thr (l : Nat) (rs : Table Word) : Thread := { Thread.fresh l placedCode 0 with regs := rs }
/-- A group of the role all. -/
abbrev grpOf (ths : List Thread) : Group := { Group.fresh 0 0 256 placedCode 0 0 with threads := ths }
/-- A team of one group, in context 1, with 4 KiB of scratchpad and of constant store and a handler. -/
abbrev teamOf (g : Group) : Team :=
  { placedTeam with
    groups := [g], ids := { placedTeam.ids with ctx := 1 },
    env := { placedEnv with scratchSize := 4096, constSize := 4096, handlers := [0x10100, 0, 0, 0] } }
/-- The turn of some lanes. -/
abbrev turnOf (ls : List Nat) : Turn :=
  { core := 0, tr := 0, grp := 0, lanes := ls, pfx := none, ipc := placedCode, len := 4, closes := true }
/-- A live context of session 0 with one unit of tile store on each die. -/
abbrev ctx1 : Ctx := { Ctx.reset with state := .live, owner := 7, grant := [(0, 1), (0, 1), (0, 1), (0, 1)] }
/-- One team on core 0, in a turn, with context 1 and session 0. -/
abbrev stOf (m : Team) (t : Turn) : State :=
  { State.reset with
    cores := [(0, { Core.reset with teams := [(0, m)], binds := [(0, 3)] })], ctxs := [(1, ctx1)],
    host := { HostSide.reset with sessions := [(0, { owner := 7, events := [], lost := 0, seq := 0 })] }, turn := some t }
/-- Two lanes with small registers. -/
abbrev g1 : Group := grpOf [thr 0 [(2, 8), (3, 1), (4, 0x7FFFFFFFFFFFFFFF)], thr 1 [(2, 16), (3, 2)]]
abbrev m1 : Team := teamOf g1
abbrev t1 : Turn := turnOf [0, 1]
abbrev s1 : State := stOf m1 t1
/-- Lane 0 alone, with some registers. -/
abbrev g0 (rs : Table Word) : Group := grpOf [thr 0 rs]
abbrev t0 : Turn := turnOf [0]
abbrev s0 (rs : Table Word) : State := stOf (teamOf (g0 rs)) t0

/-- The parts of readiness, in one order. -/
theorem mkIssuing {i : Instr} {s : State} {t : Turn} {m : Team} {g : Group} (h1 : s.turn = some t) (h2 : s.team t.core t.tr = some m)
    (h3 : m.groups[t.grp]? = some g) (h4 : t.lanes.Nodup)
    (h5 : ∀ c ∈ issueLanes t g, c.th.pend = [] ∧ c.th.poison = [] ∧ c.th.relFence = false ∧ c.th.acqs = [] ∧ c.th.fences = [])
    (h6 : wordTraps i t g ((issueLanes t g).map (fun c => (c.lane, c.th))) = none) : Issuing i s t m g := ⟨⟨h1, h2, h3, h4, h5⟩, h6⟩
theorem mkReady {i : Instr} {s : State} {t : Turn} {m : Team} {g : Group} (h1 : s.turn = some t) (h2 : s.team t.core t.tr = some m)
    (h3 : m.groups[t.grp]? = some g) (h4 : t.lanes.Nodup)
    (h5 : ∀ c ∈ issueLanes t g, c.th.pend = [] ∧ c.th.poison = [] ∧ c.th.relFence = false ∧ c.th.acqs = [] ∧ c.th.fences = [])
    (h6 : wordTraps i t g ((issueLanes t g).map (fun c => (c.lane, c.th))) = none)
    (h7 : badUseLanes i { t := t, team := m, grp := g, lanes := issueLanes t g } = []) : Ready i s t m g := ⟨mkIssuing h1 h2 h3 h4 h5 h6, h7⟩
/-- An instruction that traps neither on a word nor on what it uses is ready in `s1`. -/
theorem ready1 (i : Instr) (h : wordTraps i t1 g1 ((issueLanes t1 g1).map (fun c => (c.lane, c.th))) = none)
    (u : badUseLanes i { t := t1, team := m1, grp := g1, lanes := issueLanes t1 g1 } = [] := by decide) : Ready i s1 t1 m1 g1 :=
  mkReady rfl rfl rfl (by decide) (by decide) h u
/-- The same with lane 0 alone. -/
theorem ready0 (i : Instr) (rs : Table Word) (h : wordTraps i t0 (g0 rs) [(0, thr 0 rs)] = none)
    (u : badUseLanes i { t := t0, team := teamOf (g0 rs), grp := g0 rs, lanes := issueLanes t0 (g0 rs) } = [] := by decide) :
    Ready i (s0 rs) t0 (teamOf (g0 rs)) (g0 rs) := by
  refine mkReady rfl rfl rfl (by decide) ?_ h u
  intro c hc
  have hc' : c = ⟨0, thr 0 rs, (thr 0 rs).modes none⟩ := by simpa [issueLanes] using hc
  subst hc'
  exact ⟨rfl, rfl, rfl, rfl, rfl⟩

/-- Register r of a lane after an instruction, with every result landed. -/
def after (i : Instr) (s : State) (lane r : Nat) : Option Word :=
  match exec i s with
  | .next s' => ((s'.threadAt 0 0 0 lane).bind Thread.landAll).map (·.reg r)
  | _ => none
/-- A predicate of lane 0 after an instruction. -/
def afterP (i : Instr) (s : State) (p : Nat) : Option Byte :=
  match exec i s with
  | .next s' => ((s'.threadAt 0 0 0 0).bind Thread.landAll).map (·.pred p)
  | _ => none

/-! ### Results computed by hand -/

/-- 2^63 - 1 plus 1 wraps (R86). -/
theorem test_iadd_wraps : after (.iadd 6 4 3 0) s1 0 6 = some 0x8000000000000000 := by decide +kernel
/-- The source is also the destination, at 32 bits: each half doubles (R86). -/
theorem test_iadd_halves : after (.iadd 2 2 2 1) (s0 [(2, 0x80000001_00000003)]) 0 2 = some 0x00000002_00000006 := by decide +kernel
/-- 0 - 1 at 8 bits in every byte (R86). -/
theorem test_isub_bytes : after (.isub 6 0 2 3) (s0 [(2, 0x0101010101010101)]) 0 6 = some 0xFFFFFFFFFFFFFFFF := by decide +kernel
/-- The high half of (-1) x (-1) is 0 signed and 2^64 - 2 natural (R86). -/
theorem test_imulh : after (.imulh 6 2 2 0) (s0 [(2, 0xFFFFFFFFFFFFFFFF)]) 0 6 = some 0 ∧
    after (.imulhn 6 2 2 0) (s0 [(2, 0xFFFFFFFFFFFFFFFF)]) 0 6 = some 0xFFFFFFFFFFFFFFFE := by decide +kernel
/-- A shift by 65 shifts by 1 (R86). -/
theorem test_shl_modulo : after (.shl 6 3 2 0) (s0 [(2, 65), (3, 1)]) 0 6 = some 2 := by decide +kernel
/-- Division by zero gives all ones (R54, R108). -/
theorem test_idiv_zero : after (.idivSigned 4 0 0 0) s1 0 4 = some 0xFFFFFFFFFFFFFFFF := by decide +kernel
/-- 1 + 2^64 - 1 carries out (R90). -/
theorem test_iaddc_carry : after (.iaddc 3 2 0 8) (s0 [(2, 0xFFFFFFFFFFFFFFFF), (3, 1)]) 0 3 = some 0 ∧
    afterP (.iaddc 3 2 0 8) (s0 [(2, 0xFFFFFFFFFFFFFFFF), (3, 1)]) 8 = some 0xFF := by decide +kernel
/-- LUI: the immediate 0x80000 sign-extended and shifted left by 12 (R95). -/
theorem test_lui_sign : after (.lui 4 0x80000) s1 0 4 = some 0xFFFFFFFF80000000 := by decide +kernel
/-- A write to p0 is discarded (R19). -/
theorem test_p0 : afterP (.pxor 0 8 8) s1 0 = some 0xFF := by decide +kernel
/-- 1.0 + 2.0 = 3.0 in FP64 (R96). -/
theorem test_fadd : after (.fadd 6 2 3 0) (s0 [(2, 0x3FF0000000000000), (3, 0x4000000000000000)]) 0 6 = some 0x4008000000000000 := by
  decide +kernel
/-- 1.0 in FP32 to E4M3 is 0x38, in sub-position 0 (R32, R101). -/
theorem test_cvt : after (.cvt 4 5 0 2 5) (s0 [(5, 0x3F800000_3F800000)]) 0 4 = some 0x3838 := by decide +kernel
/-- SHFL.xor by 1 exchanges two lanes (R111). -/
theorem test_shfl : after (.shfl 6 2 3 0 0) (stOf (teamOf (grpOf [thr 0 [(2, 5), (6, 1)], thr 1 [(2, 7), (6, 1)]])) t1) 0 6 = some 7 := by
  decide +kernel
/-- The sum over two lanes of 1 and 2 in 64-bit adds (R115). -/
theorem test_reduce : after (.reduce 6 3 0 0 0 0) s1 1 6 = some 3 := by decide +kernel
/-- LDS.s8 of the byte 0x80 at address 8 sign-extends (R159). -/
theorem test_lds_sign : after (.lds 6 2 0 5 0) { s0 [(2, 8)] with cores := [(0, { (s0 [(2, 8)]).core 0 with scratch := [(8, 0x80)] })] } 0 6 =
    some 0xFFFFFFFFFFFFFF80 := by decide +kernel
/-- SRD of %lane (R22). -/
theorem test_srd_lane : after (.srd 6 0) s1 1 6 = some 1 := by decide +kernel

/-! ### Operands and states that meet the hypotheses of the statements -/

/-- An instruction traps neither on a word nor on what it uses in `s1`. -/
abbrev clear1 (i : Instr) : Bool := (wordTraps i t1 g1 ((issueLanes t1 g1).map (fun c => (c.lane, c.th)))).isNone &&
  (badUseLanes i { t := t1, team := m1, grp := g1, lanes := issueLanes t1 g1 }).isEmpty

theorem readyClear {i : Instr} (h : clear1 i = true) : Ready i s1 t1 m1 g1 := by
  rw [Bool.and_eq_true] at h
  exact ready1 i (Option.isNone_iff_eq_none.1 h.1) (List.isEmpty_iff.1 h.2)

theorem readyAll (l : List Instr) (h : l.all clear1 = true) : ∀ i ∈ l, Ready i s1 t1 m1 g1 := fun i hi => readyClear (List.all_eq_true.1 h i hi)

theorem rowsAll {α : Type} (f : Instr → Option α) (l : List Instr) (h : l.all (fun i => (f i).isSome && clear1 i) = true) :
    ∀ i ∈ l, ∃ k, f i = some k ∧ Ready i s1 t1 m1 g1 := by
  intro i hi
  have hk := List.all_eq_true.1 h i hi
  rw [Bool.and_eq_true] at hk
  exact ⟨_, Option.eq_some_of_isSome hk.1, readyClear hk.2⟩

theorem noNft1 : NoNft t1 g1 := by
  unfold NoNft
  decide

theorem wit_IntegerArithmetic : ∀ i ∈ [Instr.iadd 6 2 3 0, .isub 127 2 2 3, .imul 2 2 2 1, .imulh 6 2 3 2, .imulhn 6 2 3 0, .imad 0 2 3 0,
    .imin 6 2 3 3, .imax 6 4 3 0, .iminn 6 2 3 0, .imaxn 6 2 3 0, .shl 6 2 3 0, .shr 6 2 3 1, .sar 6 4 4 0, .rol 6 2 3 0, .ror 6 2 3 0],
    ∃ k, intRow i = some k ∧ Ready i s1 t1 m1 g1 := rowsAll _ _ (by decide)
theorem wit_NaturalArithmetic : ∀ i ∈ [Instr.iaddNatural 6 4 4 0, .isubNatural 0 0 2 3, .imulNatural 127 4 4 1],
    ∃ k, naturalRow i = some k ∧ Ready i s1 t1 m1 g1 := rowsAll _ _ (by decide)
theorem wit_IntegerDivision : ∀ i ∈ [Instr.idivSigned 4 0 0 0, .idivNatural 4 3 0 3, .iremSigned 4 2 0 1, .iremNatural 2 0 0 2],
    ∃ k, divideRow i = some k ∧ Ready i s1 t1 m1 g1 := rowsAll _ _ (by decide)
theorem wit_UnaryIntegers : ∀ i ∈ [Instr.ineg 6 2 0 4, .ineg 6 2 1 0, .iabs 6 4 0 0, .iabs 6 4 1 1, .popc 6 2 4, .clz 6 0 3, .ctz 6 0 2, .brev 2 2 1],
    ∃ k, unaryRow i = some k ∧ Ready i s1 t1 m1 g1 := rowsAll _ _ (by decide)
/-- The greatest width code of the statement. -/
theorem wit_UnaryIntegers_code : ∃ k, unaryRow (.popc 6 2 4) = some k ∧ k.w.toNat ≤ 4 := ⟨_, rfl, by decide⟩
theorem wit_WordOperations : ∀ i ∈ [Instr.and 6 2 3, .or 0 2 3, .xor 2 2 2, .andn 6 2 3, .not 6 2, .mov 127 2, .prmb 6 2 3, .bfxNatural 6 2 3,
    .bfxSigned 6 2 0, .bfi 6 2 3, .lea 6 2 3 3, .p2g 6 0], ∃ k, wordRow i = some k ∧ Ready i s1 t1 m1 g1 := rowsAll _ _ (by decide)
theorem wit_ImmediateForms : ∀ i ∈ [Instr.addi 6 4 0x1FFF, .andImmediate 6 2 0xFFF, .orImmediate 0 2 0, .xorImmediate 6 2 1, .andnImmediate 6 2 1,
    .shlImmediate 6 2 63, .shrImmediate 6 2 0, .sarImmediate 6 4 63, .rolImmediate 6 2 1, .rorImmediate 6 2 63, .bfxImmediateNatural 6 2 63 0,
    .bfxImmediateSigned 6 2 63 63, .lui 6 0x80000], ∃ k, immediateRow i = some k ∧ Ready i s1 t1 m1 g1 := rowsAll _ _ (by decide)
theorem wit_Select : (4 : BitVec 3).toNat ≤ 4 ∧ Ready (.sel 6 2 4 0) s1 t1 m1 g1 := ⟨by decide, ready1 _ (by decide)⟩
theorem wit_IntegerCompare : ∀ i ∈ [Instr.icmp 7 0 2 3 3, .cmpi 0 15 2 0x1000], Ready i s1 t1 m1 g1 := readyAll _ (by decide)
theorem wit_PredicateOperations : ∀ i ∈ [Instr.pand 15 0 0, .por 0 1 2, .pxor 8 8 8, .pnot 1 0, .g2p 1 2],
    ∃ k, predRow i = some k ∧ Ready i s1 t1 m1 g1 := rowsAll _ _ (by decide)
theorem wit_CarryChains_1 : ∀ i ∈ [Instr.iaddc 6 2 0 0, .isubb 6 2 3 15], ∃ k, carryRow i = some k ∧ Ready i s1 t1 m1 g1 := rowsAll _ _ (by decide)
theorem wit_CarryChains_2 : ∀ i ∈ [Instr.wmach 6 2 3 0, .wmacl 6 4 4 7], Ready i s1 t1 m1 g1 := readyAll _ (by decide)
theorem wit_FloatArithmetic : (∀ i ∈ [Instr.fadd 6 2 3 0, .fsub 6 2 3 3, .fmul 6 2 3 1, .ffma 6 2 3 2, .ffms 6 2 3 0, .fnma 0 2 3 1],
    ∃ k, fpRow i = some k ∧ Ready i s1 t1 m1 g1) ∧ NoNft t1 g1 := ⟨rowsAll _ _ (by decide), noNft1⟩
theorem wit_FloatSigns : ∀ i ∈ [Instr.fabs 6 2 0, .fneg 6 2 3, .fcps 6 2 3 1], ∃ k, signRow i = some k ∧ Ready i s1 t1 m1 g1 :=
  rowsAll _ _ (by decide)
theorem wit_FloatCompare : ∀ i ∈ [Instr.fcmp 7 15 2 3 0, .fcmp 0 0 2 3 3, .fclass 15 2 127 1, .fclass 0 2 0 0, .fmin 6 2 3 0, .fmax 6 2 3 3],
    Ready i s1 t1 m1 g1 := readyAll _ (by decide)
theorem wit_Conversions : (∀ i ∈ [Instr.cvt 6 2 0 1 1, .cvt 6 2 7 1 5, .cvt 6 2 1 1 2, .cvt 6 2 0 12 1], i.wf = true → Ready i s1 t1 m1 g1) ∧
    (Instr.cvt 6 2 7 1 5).wf = true ∧ (Instr.cvt 6 2 1 1 2).wf = true ∧ NoNft t1 g1 :=
  ⟨fun i hi _ => readyAll _ (by decide) i hi, by decide, by decide, noNft1⟩
theorem wit_Generator : ∀ i ∈ [Instr.seed 2, .rnd 6], Ready i s1 t1 m1 g1 := readyAll _ (by decide)
theorem wit_DivideAndRoot : (∀ i ∈ [Instr.fsqrt 6 2 0 0, .fdiv 6 2 15 3], Ready i s1 t1 m1 g1) ∧ NoNft t1 g1 := ⟨readyAll _ (by decide), noNft1⟩
theorem wit_SpecialFunctions : (∀ i ∈ [Instr.exp2 6 2 0 0, .log2 6 0 0 1, .rcp 6 0 0 2, .rsq 6 2 0 3, .sin 6 2 0 0, .cos 6 2 0 0, .tanh 6 2 0 0,
    .sigm 6 2 0 0, .sftp 6 2 15 3], ∃ k, sfuRow i = some k ∧ Ready i s1 t1 m1 g1) ∧ NoNft t1 g1 := ⟨rowsAll _ _ (by decide), noNft1⟩
/-- The sum of two FP64 infinities under NFT traps. -/
theorem wit_NonFiniteTrap :
    let rs : Table Word := [(2, 0x7FF0000000000000)]
    let t : Turn := { t0 with pfx := some (.arith 0 0 0 0 0 1) }
    let s : State := { s0 rs with turn := some t }
    ∃ k, fpRow (.fadd 6 2 2 0) = some k ∧ Ready (.fadd 6 2 2 0) s t (teamOf (g0 rs)) (g0 rs) ∧ (g0 rs).frame = none ∧
      (teamOf (g0 rs)).env.handlers.getD (g0 rs).role 0 ≠ 0 ∧ (∀ l ∈ t.lanes, l < (g0 rs).threads.length) ∧
      (issueLanes t (g0 rs)).filter (fun c => c.m.nft &&
        (List.range (64 / (Fmt.ofFt k.t).width)).any (fun j => onEl c.m.guard (64 / (Fmt.ofFt k.t).width) j &&
          (Fmt.ofFt k.t).nonFinite (k.elem c (randomAt (c.m.rm == 5) c.th.seed (rankOf (64 / (Fmt.ofFt k.t).width) c.m.guard j)) j).1)) ≠ [] :=
  ⟨_, rfl, (mkReady rfl rfl rfl (by decide) (by decide) (by decide) (by decide)), rfl, by decide, by decide, by decide +kernel⟩
/-- A block of two lanes, and a lane of FP32 at the greatest sub-position. -/
theorem wit_BlockQuantise : (Instr.cvts 6 2 0 2 5).wf = true ∧ Ready (.cvts 6 2 0 2 5) s1 t1 m1 g1 ∧ NoNft t1 g1 :=
  ⟨by decide, ready1 _ (by decide), noNft1⟩
theorem wit_LaneExchange : ∀ i ∈ [Instr.shfl 6 2 3 4 0, .shfl 2 2 0 0 15, .bcast 6 2 31 0, .bcast 6 2 0 0, .vote 1 2 0 0, .vote 0 0 2 0,
    .voteBallot 6 0 0, .matchLanes 6 2 0], Ready i s1 t1 m1 g1 := readyAll _ (by decide)
theorem wit_ReduceAndScan : (∀ i ∈ [Instr.reduce 6 2 0 0 0 0, .reduce 6 3 1 10 3 0, .scanInclusive 6 3 0 8 0 0, .scanExclusive 6 3 1 7 3 15],
    ∃ k, reduceRow i = some k ∧ Ready i s1 t1 m1 g1) ∧ t1.lanes.Pairwise (· < ·) := ⟨rowsAll _ _ (by decide), by decide⟩

/-! ### Traps and control -/

/-- A group in handler mode, entered by one lane, whose thread stands at a trap return. -/
abbrev frH : Frame :=
  { cause := 0x0000000100000009, trappc := 0x10204, trapaddr := 0, pcWritten := false,
    saved := [{ lane := 0, wb := 8, temps := [(256, 5)], pos := 3, xfer := none, back := false }] }
abbrev gH : Group := { grpOf [{ thr 0 [(2, 8)] with xfer := some .trapReturn }, { thr 1 [] with held := true }] with frame := some frH }
abbrev sH : State := stOf (teamOf gH) t0
/-- A group whose lane 0 has issued 24 instructions of its run, and whose lane 1 has its window at 248. -/
abbrev gL : Group := grpOf [{ thr 0 [] with pos := 24 }, { thr 1 [] with wb := 248 }]
abbrev sL : State := stOf (teamOf gL) t0
/-- A lane with its window at 248 and values that %xmode does not take at its register 2 and past the window. -/
abbrev gV : Group := grpOf [thr 0 [], { thr 1 [(250, 6), (256, 7)] with wb := 248 }]
/-- A team without handlers. -/
abbrev mN (g : Group) : Team := { teamOf g with env := { placedEnv with handlers := [0, 0, 0, 0] } }

theorem wit_WordTraps_run : Instr.isEvent .nop = false ∧ t0.lanes.Nodup ∧ LanesExist t0 gL ∧ AtIssue sL t0 (teamOf gL) gL ∧
    wordTraps .nop t0 gL ((issueLanes t0 gL).map (fun c => (c.lane, c.th))) = some (1, 3, [0]) :=
  ⟨rfl, by decide, by unfold LanesExist; decide, ⟨rfl, rfl, rfl, by decide, by decide⟩, by decide⟩
/-- What the state decides: an SWR of a bad %xmode, inside the window and outside it. -/
theorem wit_WordTraps_used : (∀ a ∈ [2, 8], badUseLanes (.swr a 0x0D) { t := turnOf [1], team := teamOf gV, grp := gV, lanes := issueLanes (turnOf [1]) gV } ≠ []) ∧
    wordTraps (.swr 2 0x0D) (turnOf [1]) gV ((issueLanes (turnOf [1]) gV).map (fun c => (c.lane, c.th))) = none ∧
    wordTraps (.swr 8 0x0D) (turnOf [1]) gV ((issueLanes (turnOf [1]) gV).map (fun c => (c.lane, c.th))) = some (3, 0, [1]) := by decide
theorem wit_WordTraps_window : LanesExist (turnOf [1]) gL ∧
    wordTraps (.mov 8 2) (turnOf [1]) gL ((issueLanes (turnOf [1]) gL).map (fun c => (c.lane, c.th))) = some (3, 0, [1]) ∧
    wordTraps (.mov 7 2) (turnOf [1]) gL ((issueLanes (turnOf [1]) gL).map (fun c => (c.lane, c.th))) = none :=
  ⟨by unfold LanesExist; decide, by decide, by decide⟩
/-- One input for each cause that words decide: no run is long; an EXIT before the end of its run; a matrix instruction in a vector role; the
first special register that does not exist; one that is read-only. -/
theorem wit_WordTrapCauses : endsRun .exit = true ∧ { t0 with closes := false }.closes = false ∧ roleOk 3 (.mma 0 0 0 0 0 0 0 0 0 1 1) = false ∧
    endsRun (.mma 0 0 0 0 0 0 0 0 0 1 1) = false ∧ (0x15 : Nat) < (0x16 : BitVec 6).toNat ∧
    (0x15 : BitVec 6) ∉ ([0x0D, 0x0E, 0x0F, 0x12, 0x14] : List (BitVec 6)) ∧
    ([(0, thr 0 [])].filter (fun e => decide (24 ≤ e.2.pos))).map (·.1) = [] ∧ wordTraps .nop t0 (g0 []) [(0, thr 0 [])] = none := by decide
theorem wit_RunsAndExit_1 : ∀ i ∈ [Instr.nop, .yield, .win 31, .win 0], Ready i s1 t1 m1 g1 := readyAll _ (by decide)
/-- WIN 31 fits the greatest budget and not a budget of 248, where it traps. -/
abbrev g248 : Group := { g1 with budget := 248 }
theorem wit_RunsAndExit_2 : 8 * (31 : BitVec 5).toNat < g1.budget ∧ AtIssue (stOf (teamOf g248) t1) t1 (teamOf g248) g248 ∧ LanesExist t1 g248 ∧
    t1.lanes ≠ [] ∧ (∀ c ∈ issueLanes t1 g248, c.th.pos < 24) ∧ g248.budget ≤ 8 * (31 : BitVec 5).toNat :=
  ⟨by decide, ⟨rfl, rfl, rfl, by decide, by decide⟩, by unfold LanesExist; decide, by decide, by decide, by decide⟩
theorem wit_RunsAndExit_3 : Ready (.trl 0 127 1 1) s1 t1 m1 g1 ∧ g1.frame = none ∧ (∀ x ∈ issueLanes t1 g1, x.th.xfer ≠ some .trapReturn) ∧
    Ready .exit s1 t1 m1 g1 ∧ m1.state = .running := ⟨ready1 _ (by decide), rfl, by decide, ready1 _ (by decide), rfl⟩
theorem wit_Transfers : ∀ i ∈ [Instr.call 0 0 0x80000, .br 0 1 0x7FFFF, .br 15 0 0, .ret, .jmpr 2], Ready i s1 t1 m1 g1 := readyAll _ (by decide)
theorem issuing1 {i : Instr} (h : wordTraps i t1 g1 ((issueLanes t1 g1).map (fun c => (c.lane, c.th))) = none) : Issuing i s1 t1 m1 g1 :=
  mkIssuing rfl rfl rfl (by decide) (by decide) h
theorem handlesH : ∀ c ∈ actingLanes t0 gH, Handles gH c.lane := by
  intro c hc
  have h : c.lane = 0 := by
    have : ∀ c ∈ actingLanes t0 gH, c.lane = 0 := by decide
    exact this c hc
  exact ⟨frH, { lane := 0, wb := 8, temps := [(256, 5)], pos := 3, xfer := none, back := false }, rfl, List.mem_cons_self .., h.symm, rfl⟩
theorem noHandler {g : Group} (h : g.frame = none) (l : Nat) : ¬ Handles g l := by
  rintro ⟨fr, _, hf, _⟩
  rw [h] at hf
  cases hf
theorem wit_Transfers_trap : Issuing .retTrap sH t0 (teamOf gH) gH ∧ (∀ c ∈ actingLanes t0 gH, Handles gH c.lane) ∧ Issuing .retTrap s1 t1 m1 g1 ∧
    (∃ c ∈ actingLanes t1 g1, ¬ Handles g1 c.lane) ∧ LanesExist t1 g1 :=
  ⟨mkIssuing rfl rfl rfl (by decide) (by decide) (by decide), handlesH, issuing1 (by decide),
    ⟨_, List.mem_cons_self .., noHandler rfl _⟩, by unfold LanesExist; decide⟩
theorem wit_RunsAndExit_4 : Ready .exit sH t0 (teamOf gH) gH ∧ gH.frame = some frH ∧ (∃ c ∈ actingLanes t0 gH, Handles gH c.lane) ∧
    (teamOf gH).state = .running ∧ (∀ c ∈ actingLanes t1 g1, ¬ Handles g1 c.lane) ∧ s1.engineLoad t1.core + m1.cvs.length ≤ 16 :=
  ⟨mkReady rfl rfl rfl (by decide) (by decide) (by decide) (by decide), rfl, ⟨_, List.mem_cons_self .., handlesH _ (List.mem_cons_self ..)⟩, rfl,
    fun _ _ => noHandler rfl _, by decide⟩
theorem wit_TrapsAndReturn_1 : (∀ i ∈ [Instr.trap 0xFFFF, .bkpt, .tfence], Ready i s1 t1 m1 g1) ∧ actingLanes t1 g1 ≠ [] ∧ LanesExist t1 g1 :=
  ⟨readyAll _ (by decide), by decide, by unfold LanesExist; decide⟩
/-- A lane with an enabled flag set, and none. -/
theorem wit_TrapsAndReturn_2 :
    let hit := fun (g : Group) => (actingLanes t0 g).filter (fun c => c.th.fflags &&& c.th.xmode.extractLsb' 11 6 != 0)
    hit (grpOf [{ thr 0 [] with fflags := flagNF, xmode := 0x10000 }]) ≠ [] ∧ hit (g0 []) = [] := by decide
/-- Both ways that a trap is unhandled, and a group of which a lane has returned and another still handles its trap. -/
theorem notBackH : ¬ HasReturned gH 0 := by
  rintro ⟨fr, sv, hf, hs, -, hb⟩
  obtain rfl : frH = fr := Option.some.inj hf
  obtain rfl : sv = { lane := 0, wb := 8, temps := [(256, 5)], pos := 3, xfer := none, back := false } := List.mem_singleton.1 hs
  cases hb
theorem wit_TrapsAndReturn_3 : Ready (.trap 1) sH t0 (teamOf gH) gH ∧ actingLanes t0 gH ≠ [] ∧ (teamOf gH).state = .running ∧
    (∃ l ∈ t0.lanes, Handles gH l ∧ ¬ HasReturned gH l) ∧
    Ready (.trap 1) (stOf (mN g1) t1) t1 (mN g1) g1 ∧ (mN g1).state = .running ∧ (mN g1).env.handlers.getD g1.role 0 = 0 :=
  ⟨mkReady rfl rfl rfl (by decide) (by decide) (by decide) (by decide), by decide, rfl,
    ⟨0, List.mem_cons_self .., ⟨frH, _, rfl, List.mem_cons_self .., rfl, rfl⟩, notBackH⟩,
    mkReady rfl rfl rfl (by decide) (by decide) (by decide) (by decide), rfl, rfl⟩
abbrev svB (l : Nat) (back : Bool) : SavedThread := { lane := l, wb := 0, temps := [], pos := 0, xfer := none, back := back }
abbrev gBack : Group := { grpOf [thr 0 [(2, 8)], thr 1 []] with frame := some { frH with saved := [svB 0 true, svB 1 false] } }
theorem wit_Traps_returned : gBack.frame ≠ none ∧ (∀ l ∈ t0.lanes, HasReturned gBack l) ∧ (∃ l ∈ t1.lanes, ¬ HasReturned gBack l) ∧
    (teamOf gBack).env.handlers.getD gBack.role 0 ≠ 0 := by
  refine ⟨by decide, ?_, ⟨1, by decide, ?_⟩, by decide⟩
  · intro l hl
    obtain rfl : l = 0 := List.mem_singleton.1 hl
    exact ⟨_, svB 0 true, rfl, List.mem_cons_self .., rfl, rfl⟩
  · rintro ⟨fr, sv, hf, hs, hl, hb⟩
    obtain rfl : { frH with saved := [svB 0 true, svB 1 false] } = fr := Option.some.inj hf
    have h : sv = svB 0 true ∨ sv = svB 1 false := by simpa using hs
    rcases h with rfl | rfl
    · cases hl
    · cases hb
/-- A %trappc that a thread returns to, one outside the code region, a misaligned one, and one that the handler wrote and that starts no run. -/
abbrev gT (fr : Frame) : Group := { gH with frame := some fr }
theorem readyT (fr : Frame) : Ready (.trl 127 127 127 0) (stOf (teamOf (gT fr)) t0) t0 (teamOf (gT fr)) (gT fr) :=
  mkReady rfl rfl rfl (by decide) (show ∀ c ∈ issueLanes t0 gH, c.th.pend = [] ∧ c.th.poison = [] ∧ c.th.relFence = false ∧ c.th.acqs = [] ∧
    c.th.fences = [] by decide) rfl rfl
theorem wit_TrapsAndReturn_4 : (∀ fr, Ready (.trl 127 127 127 0) (stOf (teamOf (gT fr)) t0) t0 (teamOf (gT fr)) (gT fr) ∧ (gT fr).frame = some fr) ∧
    t0.lanes ≠ [] ∧ LanesExist t0 gH ∧ frH.pcWritten = false ∧ inCode (teamOf gH).env 0x10204 = true ∧ 0x10204 % 4 = 0 ∧
    inCode (teamOf gH).env 0x20000 = false ∧ inCode (teamOf gH).env 0x10206 = true ∧ 0x10206 % 4 = 2 ∧ isRunStart sH (teamOf gH) 0x10204 = false ∧
    (teamOf gH).state = .running ∧ (∀ x ∈ issueLanes t0 gH, x.th.xfer = some .trapReturn) ∧ (∀ l ∈ t0.lanes, l ∈ frH.saved.map (·.lane)) ∧
    (frH.saved.map (·.lane)).Nodup :=
  ⟨fun fr => ⟨readyT fr, rfl⟩, by decide, by unfold LanesExist; decide, rfl, by decide, rfl, by decide, by decide, rfl, by decide +kernel, rfl, by decide,
    by decide, by decide⟩
theorem wit_SpecialRegisters_1 : ∀ i ∈ [Instr.srd 6 0, .srd 6 0x15, .srd 0 0x11, .swr 2 0x0D, .swr 2 0x0E, .swr 2 0x0F, .swr 2 0x14, .swr 2 0x12,
    .fstc 6], Ready i s1 t1 m1 g1 := readyAll _ (by decide)
/-- The greatest good value of %xmode, and the least with a reserved bit. -/
theorem wit_SpecialRegisters_2 : goodXmode 0x1FF7D = true ∧ goodXmode 0x20000 = false ∧ goodXmode 6 = false ∧ goodXmode 0x180 = false ∧
    actingLanes t1 g1 ≠ [] ∧ LanesExist t1 g1 := ⟨by decide, by decide, by decide, by decide, by decide, by unfold LanesExist; decide⟩
theorem wit_SpecialRegisters_3 : Ready (.swr 2 0x12) sH t0 (teamOf gH) gH ∧ gH.frame = some frH :=
  ⟨(mkReady rfl rfl rfl (by decide) (by decide) (by decide) (by decide)), rfl⟩

/-! ### Near memory -/

/-- Two lanes at the two ends of a 4 KiB allocation. -/
abbrev gN : Group := grpOf [thr 0 [(2, 4080), (3, 7)], thr 1 [(2, 0), (3, 9)]]
abbrev sN : State := stOf (teamOf gN) t1
/-- Two lanes that name the same two places out of the allocation and in it, in stop mode. -/
abbrev gF : Group := grpOf [{ thr 0 [(2, 4096)] with xmode := 0x20 }, thr 1 [(2, 4095)]]
abbrev sF : State := stOf (teamOf gF) t1
/-- The same in mask mode. -/
abbrev gK : Group := grpOf [thr 0 [(2, 4096)], thr 1 [(2, 4080)]]
abbrev sK : State := stOf (teamOf gK) t1

theorem readyN (i : Instr) (h : wordTraps i t1 gN [(0, thr 0 [(2, 4080), (3, 7)]), (1, thr 1 [(2, 0), (3, 9)])] = none)
    (u : badUseLanes i { t := t1, team := teamOf gN, grp := gN, lanes := issueLanes t1 gN } = [] := by decide) :
    Ready i sN t1 (teamOf gN) gN := mkReady rfl rfl rfl (by decide) (by decide) h u

/-- Sixteen bytes in a pair, at the first and the last place. -/
theorem wit_NearLoads : (Instr.ldc 6 2 0 4 15).wf = true ∧ (Instr.lds 6 2 0 4 0).wf = true ∧
    Ready (.ldc 6 2 0 4 15) sN t1 (teamOf gN) gN ∧ Ready (.lds 6 2 0 4 0) sN t1 (teamOf gN) gN ∧ sN.hours.poison = [] ∧
    (∀ c ∈ actingLanes t1 gN, ¬ OwnWaits sN t1 c) ∧
    ∀ c ∈ actingLanes t1 gN, (c.th.rd 2 + memOffset t1.pfx 0 (loadBytes 4)).toNat % loadBytes 4 = 0 ∧
      (c.th.rd 2 + memOffset t1.pfx 0 (loadBytes 4)).toNat + loadBytes 4 ≤ 4096 :=
  ⟨by decide, by decide, readyN _ (by decide), readyN _ (by decide), rfl, (fun _ _ h => by obtain ⟨_, hq, _⟩ := h; cases hq), by decide⟩
theorem wit_ScratchStore : (Instr.st 4 2 0 4 0 0).wf = true ∧ (Instr.st 0 2 0 4 0 1).wf = true ∧
    Ready (.st 4 2 0 4 0 0) sN t1 (teamOf gN) gN ∧ Ready (.st 0 2 0 4 0 1) sN t1 (teamOf gN) gN ∧
    (∀ c ∈ actingLanes t1 gN, sN.outstanding 0 0 0 c.lane = false) ∧
    ∀ c ∈ actingLanes t1 gN, (c.th.rd 2 + memOffset t1.pfx 0 16).toNat % 16 = 0 ∧ (c.th.rd 2 + memOffset t1.pfx 0 16).toNat + 16 ≤ 4096 :=
  ⟨by decide, by decide, readyN _ (by decide), readyN _ (by decide), by decide +kernel, by decide⟩
theorem wit_Atomics_1 : (Instr.atom 6 2 3 0 0 0 1 9 0).wf = true ∧ (Instr.atom 6 2 3 0 1 0 8 0 0).wf = true ∧
    Ready (.atom 6 2 3 0 0 0 1 9 0) sN t1 (teamOf gN) gN ∧ Ready (.atom 6 2 3 0 1 0 8 0 0) sN t1 (teamOf gN) gN ∧
    (∀ c ∈ actingLanes t1 gN, sN.outstanding 0 0 0 c.lane = false) ∧
    (∀ c ∈ actingLanes t1 gN, (c.th.rd 2 + memOffset t1.pfx 0 8).toNat % 8 = 0 ∧ (c.th.rd 2 + memOffset t1.pfx 0 8).toNat + 8 ≤ 4096) :=
  ⟨by decide, by decide, readyN _ (by decide), readyN _ (by decide), by decide +kernel, by decide⟩
/-- The greatest operands of the narrowest and of the widest type. -/
theorem wit_Atomics_2 : (14 ∈ [0, 8, 9, 14] ∧ 2 ^ 32 - 1 < 2 ^ (8 * atomBytes 14)) ∧ (0 ∈ [0, 8, 9, 14] ∧ 2 ^ 64 - 1 < 2 ^ (8 * atomBytes 0)) := by
  decide
theorem noTileReqs : (∀ d, (sN.die d).counts = [] ∧ (sN.die d).tileReqs = [] ∧ (sN.die d).askers = []) ∧ (∀ q, (sN.core q).peerReqs = []) ∧
    t1.lanes.length ≤ 32 ∧ ∀ c ∈ actingLanes t1 gN, c.m.consume = false := by
  refine ⟨fun d => ⟨rfl, rfl, rfl⟩, fun q => ?_, by decide, by decide⟩
  by_cases h : q = 0 <;> simp [State.core, Table.get, Table.find, h, Core.reset]
/-- LDT, LDX, and ST and ATOM in both spaces. -/
theorem wit_QueuedAccess : ∀ i ∈ [Instr.ldt 6 2 0 4 0, .ldx 6 2 0 3 15, .st 4 2 0 4 1 0, .st 0 2 0 0 2 1, .atom 6 2 3 0 1 1 8 0 0,
    .atom 6 2 3 0 0 2 1 9 0], i.wf = true ∧ Ready i sN t1 (teamOf gN) gN ∧ ∃ k, nearRow i = some k ∧ (k.space = .tile ∨ k.space = .peer) ∧
      ∃ at_ : LaneCtx → NearUnit × Nat, ∀ c ∈ actingLanes t1 gN, probeOf k sN t1 (teamOf gN) c = .ok (at_ c) := by
  have w : ∀ i ∈ [Instr.ldt 6 2 0 4 0, .ldx 6 2 0 3 15, .st 4 2 0 4 1 0, .st 0 2 0 0 2 1, .atom 6 2 3 0 1 1 8 0 0, .atom 6 2 3 0 0 2 1 9 0],
      i.wf = true ∧ wordTraps i t1 gN [(0, thr 0 [(2, 4080), (3, 7)]), (1, thr 1 [(2, 0), (3, 9)])] = none ∧ (nearRow i).isSome = true := by
    decide
  have p : ∀ i ∈ [Instr.ldt 6 2 0 4 0, .ldx 6 2 0 3 15, .st 4 2 0 4 1 0, .st 0 2 0 0 2 1, .atom 6 2 3 0 1 1 8 0 0, .atom 6 2 3 0 0 2 1 9 0],
      (nearRow i).all (fun k => (match k.space with
        | .tile | .peer => true
        | _ => false) && (actingLanes t1 gN).all (fun c => match probeOf k sN t1 (teamOf gN) c with
        | .ok _ => true
        | .error _ => false)) = true := by decide +kernel
  intro i hi
  have u : ∀ i ∈ [Instr.ldt 6 2 0 4 0, .ldx 6 2 0 3 15, .st 4 2 0 4 1 0, .st 0 2 0 0 2 1, .atom 6 2 3 0 1 1 8 0 0, .atom 6 2 3 0 0 2 1 9 0],
      badUseLanes i { t := t1, team := teamOf gN, grp := gN, lanes := issueLanes t1 gN } = [] := by decide
  obtain ⟨h1, h2, h3⟩ := w i hi
  obtain ⟨k, hk⟩ := Option.isSome_iff_exists.1 h3
  have hp := p i hi
  rw [hk] at hp
  simp only [Option.all_some, Bool.and_eq_true, List.all_eq_true] at hp
  refine ⟨h1, readyN i h2 (u i hi), k, hk, ?_, fun c => match probeOf k sN t1 (teamOf gN) c with
    | .ok v => v
    | .error _ => (.tile 0, 0), ?_⟩
  · cases hs : k.space <;> simp_all
  · intro c hc
    have := hp.2 c hc
    split at this <;> simp_all
/-- Peers 0 and 15: one that is present and one that is not. -/
theorem wit_NearProbe_1 : 0 < 16 ∧ (teamOf gN).ids.peers.length ≤ 15 * 2 ^ 28 / 2 ^ 28 % 16 ∧ (teamOf gN).ids.peers[0]? = some (0, 0) ∧
    sN.team 0 0 = some (teamOf gN) := ⟨by decide, by decide, rfl, rfl⟩
theorem wit_NearProbe_2 : ∃ k, nearRow (.lds 6 2 0 0 0) = some k ∧ Ready (.lds 6 2 0 0 0) sF t1 (teamOf gF) gF ∧ LanesExist t1 gF ∧
    ((actingLanes t1 gF).filter (fun c => match probeOf k sF t1 (teamOf gF) c with
      | .error _ => true
      | .ok _ => false)).map (fun c => (c.lane, c.th.xmode.getLsbD 5)) = [(0, true)] :=
  ⟨_, rfl, (mkReady rfl rfl rfl (by decide) (by decide) (by decide) (by decide)), by unfold LanesExist; decide, by decide⟩
theorem wit_NearProbe_3 : ∃ k, nearRow (.lds 6 2 0 4 0) = some k ∧ Ready (.lds 6 2 0 4 0) sK t1 (teamOf gK) gK ∧ sK.hours.poison = [] ∧
    ((actingLanes t1 gK).filter (fun c => match probeOf k sK t1 (teamOf gK) c with
      | .error _ => true
      | .ok _ => false)).map (fun c => (c.lane, c.th.xmode.getLsbD 5)) = [(0, false)] :=
  ⟨_, rfl, (mkReady rfl rfl rfl (by decide) (by decide) (by decide) (by decide)), rfl, by decide⟩
/-- A lock word at the end of the grant. -/
abbrev rsL : Table Word := [(2, 262136)]
abbrev whoL : LaneId := { core := 0, tr := 0, grp := 0, lane := 0 }
theorem actL : actingLanes t0 (g0 rsL) = [⟨0, thr 0 rsL, (thr 0 rsL).modes none⟩] := by decide
/-- Lane 0's request for the last word of the grant, the ninth of none that it holds. -/
theorem wit_Locks_1 : Ready (.lock 2 15) (s0 rsL) t0 (teamOf (g0 rsL)) (g0 rsL) ∧
    (∀ c ∈ actingLanes t0 (g0 rsL), (c.th.rd 2).toNat % 8 = 0 ∧ (c.th.rd 2).toNat + 8 ≤ ((s0 rsL).grant 1 0).2 ∧ c.lane = 0 ∧
      (((s0 rsL).ctx 1).grant.getD 0 (0, 0)).1 * 262144 + (c.th.rd 2).toNat = 8 * 32767) ∧
    ((s0 rsL).die 0).counts = [] ∧ ((s0 rsL).die 0).waits whoL = false ∧ ((s0 rsL).die 0).holds whoL < 8 ∧
    (∀ q ∈ (((s0 rsL).die 0).locks.find 32767).getD [], q.who ≠ whoL) ∧
    lockRoom (s0 rsL) 0 { (s0 rsL).die 0 with locks := ((s0 rsL).die 0).locks.insert 32767 ([] ++ [{ who := whoL, bar := 15, granted := false }]) } = true :=
  ⟨ready0 _ _ (by decide), by decide +kernel, rfl, by decide, by decide, by decide, by decide +kernel⟩
/-- The word's only holder, with its grant delivered and with it still on its way. -/
abbrev sU (b : Bool) : State := { s0 rsL with dies := [(0, { Die.reset with locks := [(32767, [{ who := whoL, bar := 15, granted := b }])] })] }
theorem wit_Locks_2 (b : Bool) : Ready (.unlock 2) (sU b) t0 (teamOf (g0 rsL)) (g0 rsL) ∧ ((sU b).die 0).counts = [] ∧
    (((sU b).die 0).locks.map (·.1)).Nodup ∧ ((sU b).die 0).locks.find 32767 = some [{ who := whoL, bar := 15, granted := b }] ∧
    (∃ c, actingLanes t0 (g0 rsL) = [c]) ∧ (∀ c ∈ actingLanes t0 (g0 rsL), (sU b).outstanding 0 0 0 c.lane = false ∧ c.lane = 0 ∧
      (c.th.rd 2).toNat + 8 ≤ ((sU b).grant 1 0).2) ∧ (teamOf (g0 rsL)).state = .running ∧
    (teamOf (g0 rsL)).bars[15]? = some (Barrier.fresh 1 0) ∧ (Barrier.fresh 1 0).own := by
  cases b <;> exact ⟨mkReady rfl rfl rfl (by decide) (by decide) (by decide) (by decide), rfl, by decide, rfl, ⟨_, actL⟩, by decide +kernel, rfl, rfl,
    ⟨rfl, rfl⟩⟩

/-! ### Barriers, waits, rings, convergence -/

/-- A group whose lane 0 has a release fence and an outstanding store at a bank. -/
abbrev gR : Group := grpOf [{ thr 0 [(2, 8)] with relFence := true }]
abbrev sR : State :=
  { stOf (teamOf gR) t0 with dies := [(0, { Die.reset with
    tileReqs := [{ core := 0, tr := 0, grp := 0, task := 0, own := false, pend := 0, tile := true, unit := 0, bank := 0, write := true, place := 0, lanes := [(0, 0, .store 8 0)] }] })] }
/-- A load that a fence names, still at its bank, and a lane that an acquire of its own holds back. -/
abbrev pendF : Pending := nearPending 9 0 [(6, none)]
abbrev gA : Group := grpOf [{ thr 0 [(2, 8)] with fences := [9], pend := [pendF] }]
abbrev gB : Group := grpOf [{ thr 0 [(2, 8)] with acqs := [9], pend := [pendF] }]
abbrev sAq (g : Group) : State := stOf (teamOf g) t0
theorem wit_Fence : Ready (.fence 5 3) s1 t1 m1 g1 ∧ Ready (.fence 0 2) s1 t1 m1 g1 ∧
    (∀ i ∈ [Instr.ldt 6 2 0 3 0, .lock 2 0, .cpost 6 16 0], isNearOrdered i = true) ∧ isQuery (.rgqry 6 2 0) = true ∧
    sR.turn = some t0 ∧ sR.team 0 0 = some (teamOf gR) ∧ (teamOf gR).groups[0]? = some gR ∧
    wordTraps (.ldt 6 2 0 3 0) t0 gR ((issueLanes t0 gR).map (fun c => (c.lane, c.th))) = none ∧
    (∃ c ∈ issueLanes t0 gR, c.th.relFence = true ∧ sR.outstanding 0 0 0 c.lane = true) ∧
    (∃ c ∈ issueLanes t0 gA, 9 ∈ c.th.fences ∧ ∃ p ∈ c.th.pend, p.id = 9 ∧ p.known = false ∧ p.landed = false) ∧
    (∃ c ∈ issueLanes t0 gB, 9 ∈ c.th.acqs ∧ ∃ p ∈ c.th.pend, p.id = 9 ∧ p.known = false ∧ p.landed = false) ∧
    (∀ g ∈ [gA, gB], wordTraps (.ldt 6 2 0 3 0) t0 g ((issueLanes t0 g).map (fun c => (c.lane, c.th))) = none) ∧
    (thr 0 []).pend = [] ∧ s1.openNear 0 0 0 0 = [] :=
  ⟨ready1 _ (by decide), ready1 _ (by decide), by decide, rfl, rfl, rfl, rfl, by decide, by decide +kernel, by decide, by decide, by decide, rfl,
    by decide +kernel⟩
/-- A barrier that is met at the greatest count and bytes, and one that lacks an arrival. -/
theorem wit_BarrierPhases : (Barrier.met { Barrier.fresh 65535 1 with arr := 65535, byt := 2 ^ 33 - 1 }) ∧ ¬ (Barrier.fresh 1 0).met ∧
    (Barrier.fresh 1 0).own ∧ 0 < (Barrier.fresh 1 0).expa ∧ (Barrier.own { Barrier.fresh 65535 1 with arr := 65535, byt := 2 ^ 33 - 1 }) := by
  unfold Barrier.met Barrier.own
  decide
theorem issuingAll (l : List Instr) (h : l.all (fun i => (wordTraps i t1 g1 ((issueLanes t1 g1).map (fun c => (c.lane, c.th)))).isNone) = true) :
    ∀ i ∈ l, Issuing i s1 t1 m1 g1 := fun i hi => issuing1 (Option.isNone_iff_eq_none.1 (List.all_eq_true.1 h i hi))
/-- No near access of the two lanes is outstanding; with a store at a bank one is. -/
theorem performed1 : Performed s1 t1 g1 := by
  have h : ∀ c ∈ actingLanes t1 g1, s1.outstanding 0 0 0 c.lane = false := by decide +kernel
  exact h
theorem notPerformedR : ¬ Performed sR t0 gR := by
  have h : ¬ ∀ c ∈ actingLanes t0 gR, sR.outstanding 0 0 0 c.lane = false := by decide +kernel
  exact h
/-- BINIT of the settings 8 (arrivals) and of zeros. -/
theorem wit_Barriers_1 : (∀ i ∈ [Instr.binit 15 2, .binit 0 0], Issuing i s1 t1 m1 g1) ∧ LanesExist t1 g1 ∧
    (∀ i ∈ [Instr.barr 6 1 15, .barr 6 0 0, .bexp 1 0 15 2, .bexp 0 1 0 2, .bwait 1 2 0 15,
    .bwait 0 2 1 0, .bqry 6 1 0 15, .bqry 6 0 2 0], Ready i s1 t1 m1 g1) ∧ (actingLanes t1 g1).head?.isSome = true ∧ Performed s1 t1 g1 :=
  ⟨issuingAll _ (by decide), by unfold LanesExist; decide, readyAll _ (by decide), by decide, performed1⟩
/-- The arrivals of a lane with a store at a bank. -/
abbrev sW8 : State := { sR with cores := (s0 [(2, 8)]).cores }
theorem wit_Barriers_3 : (∀ i ∈ [Instr.barr 6 0 0, .cbar 6 0 0, .course 0, .cpost 6 16 0, .bexp 0 1 0 2],
    Ready i sW8 t0 (teamOf (g0 [(2, 8)])) (g0 [(2, 8)])) ∧ ¬ Performed sW8 t0 (g0 [(2, 8)]) := by
  refine ⟨fun i hi => ?_, ?_⟩
  · have h : ∀ i ∈ [Instr.barr 6 0 0, .cbar 6 0 0, .course 0, .cpost 6 16 0, .bexp 0 1 0 2],
        wordTraps i t0 (g0 [(2, 8)]) [(0, thr 0 [(2, 8)])] = none ∧
        badUseLanes i { t := t0, team := teamOf (g0 [(2, 8)]), grp := g0 [(2, 8)], lanes := issueLanes t0 (g0 [(2, 8)]) } = [] := by decide
    exact mkReady rfl rfl rfl (by decide) (by decide) (h i hi).1 (h i hi).2
  · have h : ¬ ∀ c ∈ actingLanes t0 (g0 [(2, 8)]), sW8.outstanding 0 0 0 c.lane = false := by decide +kernel
    exact h
/-- A guard of p1, which is zero: no lane acts. -/
abbrev tOff : Turn := { t1 with pfx := some (.arith 1 0 0 0 0 0) }
theorem wit_NoLaneActs : (∀ i ∈ [Instr.binit 15 0, .barr 6 0 15, .bexp 0 1 0 2, .bwait 1 2 0 15, .cbar 6 0 0, .course 15, .kwait 0 0 0, .srinit 0 3 3 0 0,
      .sracq 1 2 3, .srget 1 2 3, .srput 0 0 3 2 0, .srrel 0 3 2, .srclose 3, .cvset 2 7, .sign 7, .cvwait 7, .tpost 2, .freeze 2 0, .thaw 2 15],
      Ready i { s1 with turn := some tOff } tOff m1 g1) ∧
    actingLanes tOff g1 = [] := by
  refine ⟨fun i hi => ?_, by decide⟩
  have h : ∀ i ∈ [Instr.binit 15 0, .barr 6 0 15, .bexp 0 1 0 2, .bwait 1 2 0 15, .cbar 6 0 0, .course 15, .kwait 0 0 0, .srinit 0 3 3 0 0,
      .sracq 1 2 3, .srget 1 2 3, .srput 0 0 3 2 0, .srrel 0 3 2, .srclose 3, .cvset 2 7, .sign 7, .cvwait 7, .tpost 2, .freeze 2 0, .thaw 2 15],
      wordTraps i tOff g1 ((issueLanes tOff g1).map (fun c =>
        (c.lane, c.th))) = none ∧ badUseLanes i { t := tOff, team := m1, grp := g1, lanes := issueLanes tOff g1 } = [] := by decide
  exact mkReady rfl rfl rfl (by decide) (by decide) (h i hi).1 (h i hi).2
theorem wit_Barriers_2 : m1.bars[15]? = some (Barrier.fresh 1 0) ∧ (Barrier.fresh 1 0).own ∧ ¬ (Barrier.fresh 1 0).met ∧ 0 < (Barrier.fresh 1 0).expa ∧
    m1.ids.peers.headD (0, 0) = (0, 0) ∧ s1.team 0 0 = some m1 ∧ (Barrier.fresh 1 0).byt < 2 ^ 33 :=
  ⟨rfl, ⟨rfl, rfl⟩, by unfold Barrier.met; decide, by decide, rfl, rfl, by decide⟩
theorem wit_WaitInstructions : (∀ i ∈ [Instr.cbar 6 1 15, .cbar 6 0 0, .course 0, .course 15, .kwait 0 0 0, .kwait 0 2 3], Ready i s1 t1 m1 g1) ∧
    actingLanes t1 g1 ≠ [] ∧ Performed s1 t1 g1 ∧ m1.env.stream = false :=
  ⟨readyAll _ (by decide), by decide, performed1, rfl⟩
/-- A team of a grid that is not bound whole. -/
abbrev mS : Team := { m1 with env := { m1.env with stream := true } }
theorem wit_WaitInstructions_stream : Issuing (.course 1) (stOf mS t1) t1 mS g1 ∧ mS.env.stream = true ∧ LanesExist t1 g1 :=
  ⟨mkIssuing rfl rfl rfl (by decide) (by decide) (by decide), rfl, by unfold LanesExist; decide⟩
/-- Settings of 1 and 2 arrivals and of 16 bytes. -/
abbrev rsR : Table Word := [(2, 0x0000001000020001)]
theorem issuingR (i : Instr) (h : wordTraps i t0 (g0 rsR) ((issueLanes t0 (g0 rsR)).map (fun c => (c.lane, c.th))) = none) :
    Issuing i (s0 rsR) t0 (teamOf (g0 rsR)) (g0 rsR) := mkIssuing rfl rfl rfl (by decide) (by decide) h
/-- Good settings in g2, and zeros in g3; a ring that is not set, one that is closed, and one in use. -/
theorem wit_StageRings_1 : (Instr.srinit 0 3 2 0 6).wf = true ∧ Issuing (.srinit 0 3 2 0 6) (s0 rsR) t0 (teamOf (g0 rsR)) (g0 rsR) ∧
    (actingLanes t0 (g0 rsR)).head?.map (fun c => (c.th.rd 2, c.th.rd 3)) = some (0x0000001000020001, 0) ∧ (teamOf (g0 rsR)).bars.length = 16 ∧
    (teamOf (g0 rsR)).rings.find 3 = none ∧ Issuing (.srinit 0 3 3 0 0) (s0 rsR) t0 (teamOf (g0 rsR)) (g0 rsR) ∧ LanesExist t0 (g0 rsR) ∧
    (0x0000001000020001 : Word).extractLsb' 16 16 ≠ 0 ∧ (0x0000001000020001 : Word).extractLsb' 0 16 ≠ 0 :=
  ⟨by decide, issuingR _ (by decide), by decide, by decide, rfl, issuingR _ (by decide), by unfold LanesExist; decide, by decide, by decide⟩
theorem wit_StageRings_2 : (∀ i ∈ [Instr.sracq 1 2 3, .srget 1 2 3, .srput 0 0 3 2 0, .srrel 0 3 2, .srclose 3], Issuing i s1 t1 m1 g1) ∧
    m1.rings.find 3 = none ∧ LanesExist t1 g1 ∧ actingLanes t1 g1 ≠ [] := ⟨issuingAll _ (by decide), rfl, by unfold LanesExist; decide, by decide⟩
/-- A team with an open ring over barriers 0 to 15. -/
abbrev ring8 : Ring := { n := 8, bF := 0, role := 0, st := .opened, awaits := none }
abbrev mQ : Team := { m1 with rings := [(3, ring8)] }
theorem wit_StageRings_3 : (∀ i ∈ [Instr.sracq 0 2 3, .srget 1 2 3, .srput 1 1 3 2 3, .srput 0 0 3 2 0, .srrel 0 3 2, .srrel 1 3 2, .srclose 3],
    Ready i (stOf mQ t1) t1 mQ g1) ∧ mQ.rings.find 3 = some ring8 ∧ 0 < ring8.n ∧ ring8.bF + 2 * ring8.n ≤ mQ.bars.length ∧
    (∀ e ∈ mQ.bars, e.own) ∧ ring8.st = .opened ∧ Performed (stOf mQ t1) t1 g1 := by
  refine ⟨fun i hi => ?_, rfl, by decide, by decide, by unfold Barrier.own; decide, rfl, ?_⟩
  · have h : ∀ i ∈ [Instr.sracq 0 2 3, .srget 1 2 3, .srput 1 1 3 2 3, .srput 0 0 3 2 0, .srrel 0 3 2, .srrel 1 3 2, .srclose 3],
        wordTraps i t1 g1 ((issueLanes t1 g1).map (fun c => (c.lane, c.th))) = none ∧
        badUseLanes i { t := t1, team := mQ, grp := g1, lanes := issueLanes t1 g1 } = [] := by decide
    exact mkReady rfl rfl rfl (by decide) (by decide) (h i hi).1 (h i hi).2
  · have h : ∀ c ∈ actingLanes t1 g1, (stOf mQ t1).outstanding 0 0 0 c.lane = false := by decide +kernel
    exact h
/-- One member, and three members or one that is not there. -/
theorem wit_Convergence_1 : Issuing (.cvset 3 7) s1 t1 m1 g1 ∧ Issuing (.cvset 2 7) s1 t1 m1 g1 ∧ LanesExist t1 g1 ∧ (actingLanes t1 g1).head?.map (fun c => c.th.rd 3) = some 1 ∧
    (((List.range 32).filter (fun k => (1 : Word).getLsbD k)).length = 1) ∧ m1.cvs.find 7 = none ∧
    ((List.range 32).filter (fun k => (0x80000000 : Word).getLsbD k) = [31] ∧ m1.groups.length ≤ 31) ∧
    ((List.range 32).filter (fun k => (7 : Word).getLsbD k)).length = 3 :=
  ⟨issuing1 (by decide), issuing1 (by decide), by unfold LanesExist; decide, by decide, by decide, rfl, by decide, by decide⟩
/-- A register over the team's one group; lane 1 has signed its phase. -/
abbrev cv7 : Cv := { members := [0], q := 4, ready := none }
abbrev gC : Group := grpOf [thr 0 [], { thr 1 [] with signed := [(7, 5)] }]
abbrev mC : Team := { teamOf gC with cvs := [(7, cv7)] }
theorem wit_Convergence_2 : Ready (.sign 7) (stOf mC t1) t1 mC gC ∧ Ready (.cvwait 7) (stOf mC t1) t1 mC gC ∧ actingLanes t1 gC ≠ [] ∧
    mC.cvs.find 7 = some cv7 ∧ (∀ i ∈ [Instr.sign 7, .cvwait 7], Issuing i s1 t1 m1 g1) ∧ LanesExist t1 g1 ∧ ∀ v, m1.cvs.find 7 = some v → t1.grp ∉ v.members :=
  ⟨mkReady rfl rfl rfl (by decide) (by decide) (by decide) (by decide), mkReady rfl rfl rfl (by decide) (by decide) (by decide) (by decide),
    by decide, rfl, issuingAll _ (by decide), by unfold LanesExist; decide, fun _ h => by cases h⟩

/-! ### Commands -/

/-- An empty queue has room for two lanes; with 127 entries it has none. -/
theorem wit_Posts_1 : Ready (.cpost 6 16 0) s1 t1 m1 g1 ∧ Performed s1 t1 g1 ∧ (s1.core 0).hod.q0.length + (actingLanes t1 g1).length ≤ 128 ∧
    (∀ k, k < 4 → g1.counters.getD k 0 + (actingLanes t1 g1).length ≤ 256) ∧ 128 < 127 + (actingLanes t1 g1).length :=
  ⟨ready1 _ (by decide), performed1, by decide, by decide, by decide⟩
theorem wit_Posts_2 : Ready (.tpost 2) s1 t1 m1 g1 ∧ actingLanes t1 g1 ≠ [] ∧
    (s1.sched.tposts.filter (fun r => r.core == t1.core && r.waiting)).length < 8 := ⟨ready1 _ (by decide), by decide, by decide⟩
/-- The entries that FREEZE and THAW meet: an unset one, one in use, one draining, one thawing, and the greatest freeze count. -/
abbrev regC (r : Region) : State := { s0 [(2, 255)] with ctxs := [(1, { ctx1 with regions := [(255, r)] })] }
abbrev reg1 : Region := { Region.reset with valid := true, base := 0, size := 1 }
theorem readyRg (thaw : Bool) (r : Region) :
    Ready (if thaw then .thaw 2 15 else .freeze 2 15) (regC r) t0 (teamOf (g0 [(2, 255)])) (g0 [(2, 255)]) := by
  cases thaw <;> exact (mkReady rfl rfl rfl (by decide) (by decide) (by decide) (by decide))
theorem wit_FreezeThawAndQueries_1 : (∀ (thaw : Bool) (r : Region),
      Ready (if thaw then .thaw 2 15 else .freeze 2 15) (regC r) t0 (teamOf (g0 [(2, 255)])) (g0 [(2, 255)])) ∧
    (∀ r, (regC r).region 1 255 = r) ∧ (actingLanes t0 (g0 [(2, 255)])).head?.map (fun c => (c.th.rd 2).toNat) = some 255 ∧
    (teamOf (g0 [(2, 255)])).bars[15]? = some (Barrier.fresh 1 0) ∧ (Barrier.fresh 1 0).own :=
  ⟨readyRg, fun _ => rfl, by decide, rfl, ⟨rfl, rfl⟩⟩
/-- One entry for each row of the table of R192. -/
theorem wit_FreezeThawAndQueries_2 : [Region.reset, reg1, { reg1 with fcount := 254, draining := true }, { reg1 with fcount := 254 },
    { reg1 with fcount := 255 }, { reg1 with thawing := true }, { reg1 with fcount := 1 }, { reg1 with fcount := 2 }].map (fun r =>
      (r.valid, r.draining, r.thawing, r.fcount)) =
    [(false, false, false, 0), (true, false, false, 0), (true, true, false, 254), (true, false, false, 254), (true, false, false, 255),
      (true, false, true, 0), (true, false, false, 1), (true, false, false, 2)] := rfl
theorem wit_FreezeThawAndQueries_3 : ∀ i ∈ [Instr.rgqry 6 2 0, .gwqry 6 2 15], Ready i s1 t1 m1 g1 := readyAll _ (by decide)

/-! ### The matrix engine -/

abbrev insMma : Instr := .mma 16 0 4 0 0 1 0 0 7 11 11
/-- A register over the group, and one not set; a counter at 256; and a group whose first lane has arrived. -/
abbrev cv0 : Cv := { members := [0], q := 0, ready := none }
abbrev gX : Group := grpOf [thr 0 [], thr 1 []]
abbrev mXof (g : Group) : Team := { teamOf g with cvs := [(7, cv0)] }
abbrev mX : Team := mXof gX
abbrev gX3 : Group := { gX with counters := [0, 0, 0, 256] }
abbrev insAll : List Instr := [insMma, .mmas 16 0 8 0 0 1 0 0 7 11 11 0, .mtrn 16 0 0 7 1, .mperm 16 0 0 0 7 1 0 0, .mrsum 16 0 0 7 1 0, .mtok 7 0]
theorem wit_MatrixOperations_1 : ∀ i ∈ insAll, i.wf = true ∧ namesCv i = some 7 ∧ Ready i (stOf mX t1) t1 mX gX ∧
    Ready i (stOf (mXof gX3) t1) t1 (mXof gX3) gX3 ∧ Issuing i s1 t1 m1 g1 ∧ Issuing i (stOf { mX with cvs := [(7, { cv0 with members := [1] })] } t1) t1 { mX with cvs := [(7, { cv0 with members := [1] })] } gX := by
  have h : ∀ i ∈ insAll, i.wf = true ∧ namesCv i = some 7 ∧ wordTraps i t1 gX [(0, thr 0 []), (1, thr 1 [])] = none ∧
      wordTraps i t1 g1 ((issueLanes t1 g1).map (fun c => (c.lane, c.th))) = none ∧
      badUseLanes i { t := t1, team := mX, grp := gX, lanes := issueLanes t1 gX } = [] ∧
      badUseLanes i { t := t1, team := mXof gX3, grp := gX3, lanes := issueLanes t1 gX3 } = [] := by decide
  intro i hi
  obtain ⟨h1, h2, h3, h4, h5, h6⟩ := h i hi
  exact ⟨h1, h2, mkReady rfl rfl rfl (by decide) (by decide) h3 h5, mkReady rfl rfl rfl (by decide) (by decide) h3 h6, issuing1 h4,
    mkIssuing rfl rfl rfl (by decide) (by decide) h3⟩
theorem wit_MatrixOperations_2 : mX.captures = [] ∧ m1.cvs.find 7 = none ∧ mX.cvs.find 7 = some cv0 ∧ t1.lanes ≠ [] ∧ gX.counters.length = 4 ∧
    gX.counters.getD 3 0 < 256 ∧ 256 ≤ gX3.counters.getD 3 0 ∧ (stOf mX t1).engineLoad 0 + mX.cvs.length ≤ 16 ∧
    (∀ th ∈ gX.threads, ∀ w, th.status ≠ .wait (.matrix w)) ∧ t1.grp ∉ ({ cv0 with members := [1] } : Cv).members ∧ LanesExist t1 gX := by
  refine ⟨rfl, rfl, rfl, by decide, rfl, by decide, by decide, by decide +kernel, ?_, by decide, by unfold LanesExist; decide⟩
  intro th ht w
  have h : ∀ th ∈ gX.threads, th.status = .run := by decide
  rw [h th ht]
  intro hw
  cases hw
/-- A weight range at the end of the constant store, and one that passes it in stop mode. -/
abbrev gN3 : Group := { gN with counters := [0, 0, 0, 256] }
theorem wit_MatrixOperations_3 : (Instr.mvt 20 10 2 0 0 1 0 0 0).wf = true ∧ Ready (.mvt 20 10 2 0 0 1 0 0 0) sN t1 (teamOf gN) gN ∧
    (∀ c ∈ (issueLanes t1 gN).filter (fun c => onEl c.m.guard 2 0 || onEl c.m.guard 2 1),
      (c.th.rd 2 + BitVec.ofNat 64 (4 * (0 : BitVec 13).toNat)).toNat + 4 ≤ 4096) ∧
    Ready (.mvt 20 10 2 0 0 1 0 0 0) sF t1 (teamOf gF) gF ∧
    (∃ c ∈ issueLanes t1 gF, 4096 < (c.th.rd 2 + BitVec.ofNat 64 (4 * (0 : BitVec 13).toNat)).toNat + 4 ∧ c.th.xmode.getLsbD 5 = true) ∧ LanesExist t1 gF ∧
    (sN.core 0).engine.length < 16 ∧ sN.readyOps 0 = [] ∧ gN.counters.getD 3 0 < 256 ∧
    Ready (.mvt 20 10 2 0 0 1 0 0 0) (stOf (teamOf gN3) t1) t1 (teamOf gN3) gN3 ∧ ¬ gN3.counters.getD 3 0 < 256 :=
  ⟨by decide, readyN _ (by decide), by decide, mkReady rfl rfl rfl (by decide) (by decide) (by decide) (by decide), by decide, by unfold LanesExist; decide,
    by decide, by decide +kernel, by decide, mkReady rfl rfl rfl (by decide) (by decide) (by decide) (by decide), by decide⟩
/-- An operation of INT8 with NAT8 whose every lane has four registers. -/
abbrev arrI (k : Nat) : Arrival :=
  { cv := 0, post := 0, pend := 0, ipc := 0, instr := .mma 16 0 4 0 0 0 0 0 0 11 12, sat := 0, ftz := 0, rnd := 0, guard := 0xFF, nft := false,
    a := [], sa := 0, b := [.val (BitVec.ofNat 64 k)], sb := 0, d := List.replicate 4 (.val 0), dRegs := [16, 17, 18, 19],
    dOld := List.replicate 4 0 }
abbrev memI : MatMember := { grp := 0, post := 0, lanes := (List.range 32).map (fun k => { lane := k, arr := arrI k }) }
abbrev opI : MatOp :=
  { tr := 0, leader := .mma 16 0 4 0 0 0 0 0 0 11 12, a := (List.range 32).map (fun k => (k, [BitVec.ofNat 64 k])), sa := [], members := [memI],
    constBase := 0, results := none, olds := [] }
theorem wit_IntegerProducts : opI.a = (List.range 32).map (fun k => (k, [BitVec.ofNat 64 k])) ∧
    memI.lanes.map (fun y => (y.lane, y.arr.b)) = (List.range 32).map (fun k => (k, [BitVec.ofNat 64 k].map AccSrc.val)) ∧
    ∀ y ∈ memI.lanes, y.arr.dRegs.length = 4 ∧ y.arr.dOld.length = 4 := by decide

/-- The team whose group has arrived at an operation with both lanes, as the first one of the group. -/
abbrev arrM (i : Instr) (l : Nat) : Arrival :=
  { cv := 7, post := 3, pend := 3, ipc := placedCode, instr := i, sat := 0, ftz := 0, rnd := 0, guard := 0xFF, nft := false, a := [0, 0, 0, 0],
    sa := 0, b := List.replicate 4 (.val 0), sb := 0, d := [], dRegs := [16 + l, 17 + l, 18 + l, 19 + l], dOld := [0, 0, 0, 0] }
abbrev thM (i : Instr) (l : Nat) : Thread := { thr l [] with status := .wait (.matrix (arrM i 0)), signed := [(7, 1)] }
abbrev gM (i : Instr) : Group := { grpOf [thM i 0, thM i 1] with posted := [(3, false)], counters := [0, 0, 0, 1] }
/-- The register became ready in cycle 5 by slot 0. -/
abbrev cvR : Cv := { members := [0], q := 0, ready := some (5, 0) }
abbrev mM (i : Instr) : Team := { teamOf (gM i) with cvs := [(7, cvR)] }
abbrev sM (i : Instr) : State := { stOf (mM i) t0 with turn := none }
theorem arrivedM (i : Instr) : ∀ k ∈ [0], ∀ g, (mM i).groups[k]? = some g → ∀ th ∈ g.threads, th.status ≠ .exited →
    th.signed.find 7 = some (0 + 1) ∧ ∃ w, th.status = .wait (.matrix w) ∧ w.cv = 7 := by
  intro k hk g hg th ht _
  have hk' : k = 0 := by simpa using hk
  subst hk'
  obtain rfl : gM i = g := Option.some.inj hg
  have ht' : th = thM i 0 ∨ th = thM i 1 := by simpa using ht
  rcases ht' with rfl | rfl <;> exact ⟨rfl, _, rfl, rfl⟩
theorem wit_EngineSteps_1 : ∀ i ∈ [insMma, Instr.mtok 7 8], (sM i).team 0 0 = some (mM i) ∧ (mM i).state = .running ∧
    (mM i).cvs.find 7 = some cvR ∧ (mM i).token = none ∧ cvR.members.Nodup ∧
    (∃ x lead, ((mM i).matMembers 7 cvR).head? = some x ∧ x.lanes.head? = some lead ∧ lead.arr.instr = i ∧
      ∀ y ∈ (mM i).matMembers 7 cvR, ∀ z ∈ y.lanes, z.arr.agrees lead.arr = true) ∧ ((sM i).core 0).engine.length < 16 ∧
    (∀ e ∈ (sM i).readyOps 0, 5 < e.2.2.1 ∨ (5 = e.2.2.1 ∧ 0 ≤ e.2.2.2)) ∧ (sM i).engineLoad 0 + (mM i).cvs.length ≤ 16 := by
  intro i hi
  have hx : i = insMma ∨ i = Instr.mtok 7 8 := by simpa using hi
  rcases hx with rfl | rfl <;>
    exact ⟨rfl, rfl, rfl, rfl, by decide, ⟨_, _, rfl, rfl, rfl, by decide⟩, by decide, by decide +kernel, by decide +kernel⟩
/-- An operation in the queue, waiting and executed. -/
abbrev opM (r : Option (List MatResult)) : MatOp :=
  { tr := 0, leader := insMma, a := [], sa := [], members := [{ grp := 0, post := 3, lanes := [{ lane := 0, arr := arrM insMma 0 }] }],
    constBase := 0, results := r, olds := [] }
abbrev rsM : List MatResult := [{ grp := 0, lane := 0, regs := [(16, 5)], flags := 1, bad := false }]
abbrev pendY : Pending :=
  { id := 3, regs := [(16, none)], preds := [], win := 0, inRun := true, awaited := [], awaitAll := false, landed := false, near := false,
    matrix := true, hold := false, fp := false, fixed := false }
abbrev gY : Group := { grpOf [{ thr 0 [] with pend := [pendY] }] with posted := [(3, false)], counters := [0, 0, 0, 1] }
abbrev sY (r : Option (List MatResult)) : State :=
  { stOf (teamOf gY) t0 with turn := none, cores := [(0, { Core.reset with teams := [(0, teamOf gY)], binds := [(0, 3)], engine := [opM r] })] }
theorem wit_EngineSteps_2 : ((sY none).core 0).engine = opM none :: [] ∧ (opM none).results = none ∧ (sY none).hours.poison = [] := ⟨rfl, rfl, rfl⟩
theorem wit_EngineSteps_3 : ((sY (some rsM)).core 0).engine = opM (some rsM) :: [] ∧ (sY (some rsM)).team 0 0 = some (teamOf gY) ∧
    ((opM (some rsM)).members.map (·.grp)).Nodup ∧ (teamOf gY).groups[0]? = some gY ∧ gY.posted = [(3, false)] ∧ gY.counters.length = 4 ∧
    1 ≤ gY.counters.getD 3 0 ∧ rsM.find? (fun r => r.grp = 0 && r.lane = 0) = some { grp := 0, lane := 0, regs := [(16, 5)], flags := 1, bad := false } ∧
    (∀ x ∈ (opM (some rsM)).members, (x.lanes.map (·.lane)).Nodup ∧ ∀ y ∈ x.lanes, y.arr.nft = false) ∧ (pendY.regs.map (·.1)).Nodup :=
  ⟨rfl, rfl, by decide, rfl, rfl, rfl, by decide, rfl, by decide, by decide⟩

/-! ### The steps of a core -/

abbrev idle (m : Team) : State := { stOf m t0 with turn := none }
theorem wit_TurnsAndPorts_1 : (idle m1).turn = none ∧ (idle m1).parkedTurn 0 0 = none ∧ (idle m1).candidates 0 0 = (0, 0) :: [] ∧ (idle m1).team 0 0 = some m1 ∧
    m1.groups[0]? = some g1 ∧ ∃ th ∈ g1.threads, th.runnable = true := ⟨rfl, rfl, by decide +kernel, rfl, rfl, by decide⟩
/-- Two groups on two slots: the turn of slot 0 is in progress, that of slot 1 set aside. -/
abbrev mTwo : Team := { m1 with groups := [g1, { g1 with slot := 1 }] }
abbrev pTwo : Parked := { slot := 1, task := mTwo.ids.task, turn := { t0 with grp := 1 } }
abbrev sTwo : State := { stOf mTwo t0 with parked := [pTwo] }
theorem wit_TurnsAndPorts_4 : sTwo.turn = some t0 ∧ sTwo.turnSlot t0 = some (0, mTwo.ids.task) ∧ sTwo.parkedTurn 0 1 = some pTwo ∧
    sTwo.parkedLanes pTwo = [0] := ⟨rfl, rfl, rfl, by decide +kernel⟩
theorem test_turn_set_aside : (match exec (.issueTurn 0 1) sTwo with
    | .next s => s.turn == some { t0 with grp := 1 } && s.parked == [{ slot := 0, task := mTwo.ids.task, turn := t0 }]
    | _ => false) = true := by decide +kernel
/-- A known result inside its window, and one past it. -/
abbrev pendOf (inRun : Bool) : Pending :=
  { id := 1, regs := [(6, some 5)], preds := [(1, some 0xFF)], win := 2, inRun := inRun, awaited := [], awaitAll := false, landed := false, near := false,
    matrix := false, hold := false, fp := false, fixed := false }
abbrev gP (inRun : Bool) : Group := grpOf [{ thr 0 [] with pend := [pendOf inRun] }]
theorem wit_TurnsAndPorts_2 : ∀ inRun : Bool, ∃ th, (idle (teamOf (gP inRun))).threadAt 0 0 0 0 = some th ∧ th.pend[0]? = some (pendOf inRun) ∧
    (pendOf inRun).known = true ∧ ((pendOf inRun).regs.map (·.1)).Nodup ∧ ((pendOf inRun).preds.map (·.1)).Nodup := by
  intro b
  cases b <;> exact ⟨_, rfl, rfl, rfl, by decide, by decide⟩
/-- A store of lane 0 and a load of lane 1, at a bank and at a port. -/
abbrev reqB (tile : Bool) : NearReq :=
  { tile := tile, own := false, unit := 0, bank := 0, write := true, place := 0, core := 0, tr := 0, grp := 0, task := 0, pend := 0,
    lanes := [(0, 0, .store 8 7), (1, 0, .load 8 false 6)] }
abbrev sB1 : State := { idle m1 with dies := [(0, { Die.reset with tileReqs := [reqB true] })] }
abbrev sB2 : State := { idle m1 with cores := [(0, { Core.reset with teams := [(0, m1)], peerReqs := [reqB false] })] }
theorem wit_TurnsAndPorts_3 : (sB1.die 0).tileReqs = [reqB true] ∧ (reqB true).tile = true ∧ (reqB true).unit = 0 ∧ sB1.hours.poison = [] ∧
    (sB2.core 0).peerReqs.find? (fun q => q.bank == 0) = some (reqB false) ∧ (reqB false).tile = false ∧ sB2.hours.poison = [] :=
  ⟨rfl, rfl, rfl, rfl, rfl, rfl, rfl⟩
/-- A group with a thread in each wait that this step can end. -/
abbrev gW : Group :=
  grpOf [{ thr 0 [] with status := .wait (.barrier false 0 0 1) }, { thr 1 [] with status := .wait (.counter 0 0) },
    { thr 2 [] with status := .wait (.cvwait 7 0) }]
theorem wit_WaitEnds_1 : (idle (teamOf gW)).team 0 0 = some (teamOf gW) ∧ (teamOf gW).groups[0]? = some gW ∧
    ∀ th ∈ gW.threads, ∀ cv, th.status ≠ .wait (.sign cv) := by
  refine ⟨rfl, rfl, ?_⟩
  intro th ht cv
  have h : th = { thr 0 [] with status := .wait (.barrier false 0 0 1) } ∨ th = { thr 1 [] with status := .wait (.counter 0 0) } ∨
    th = { thr 2 [] with status := .wait (.cvwait 7 0) } := by simpa using ht
  rcases h with rfl | rfl | rfl <;> simp
abbrev arrC : CbarArrival := { fromCore := 0, fromRec := 0, toRec := 0, bar := 15, grp := 0, lanes := [0, 1], one := false, pend := 1 }
abbrev sC1 : State := { idle m1 with cores := [(0, { Core.reset with teams := [(0, m1)], cbars := [arrC] })] }
theorem wit_WaitEnds_2 : (sC1.core 0).cbars.find? (fun q => q.toRec == 0) = some arrC ∧ sC1.team 0 0 = some m1 ∧
    m1.bars[15]? = some (Barrier.fresh 1 0) ∧ arrC.lanes.Nodup := ⟨rfl, rfl, rfl, by decide⟩
/-- A launch of one task whose one team waits for the course. -/
abbrev launch0 : Launch :=
  { block := 0, ctx := 1, queue := 0, ring := 0, order := 0, node := 0, pages := [], reason := 0, summary := Summary.empty, courses := 0, lastCourse := 0,
    lastStop := 0, teamDies := 0, ended := false }
abbrev gang0 : Gang := { grid := 0, first := 0, records := [], slice := 0, since := 0, poisoned := false }
abbrev task0 : Task := { Task.fresh gang0 1 false with state := .opened, teams := [(0, 0)] }
abbrev mW : Team := teamOf (grpOf [{ thr 0 [] with status := .wait (.course 1) }, { thr 1 [] with status := .exited }])
abbrev sW : State := { idle mW with sched := { Sched.reset with launches := [(0, launch0)], tasks := [(0, task0)] } }
theorem wit_WaitEnds_3 : sW.sched.launches.find 0 = some launch0 ∧
    (sW.sched.tasks.filter (fun e => e.2.grid == 0 && (match e.2.state with
      | .discarding _ => false
      | _ => true))).flatMap (fun e => e.2.teams) = [(0, 0)] ∧ launch0.lastStop ≤ launch0.lastCourse ∧ sW.team 0 0 = some mW ∧ mW.state = .running ∧
    sW.teamBusy 0 0 mW = false ∧ sW.courseReady launch0.ctx (fun k => k.launch == 0 && (k.scope == 3 || k.scope == 4)) = true ∧
    ∀ g ∈ mW.groups, ∀ th ∈ g.threads, th.status = .exited ∨ ∃ d, th.status = .wait (.course d) := by
  refine ⟨rfl, by decide +kernel, by decide, rfl, rfl, by decide, by decide +kernel, ?_⟩
  intro g hg th ht
  obtain rfl : g = grpOf [{ thr 0 [] with status := .wait (.course 1) }, { thr 1 [] with status := .exited }] := by simpa using hg
  have h : th = { thr 0 [] with status := .wait (.course 1) } ∨ th = { thr 1 [] with status := .exited } := by simpa using ht
  rcases h with rfl | rfl
  · exact .inr ⟨1, rfl⟩
  · exact .inl rfl
abbrev mE : Team := { m1 with rings := [(3, { ring8 with st := .closing, awaits := some [] })] }
theorem wit_WaitEnds_4 : (idle mE).team 0 0 = some mE ∧ mE.rings.find 3 = some { ring8 with st := .closing, awaits := some [] } ∧
    ((idle mE).core 0).hod.flight = [] := ⟨rfl, rfl, rfl⟩
/-- A queue whose head has no grant, of a running team and of one that has ended. -/
abbrev reqL : LockReq := { who := whoL, bar := 15, granted := false }
abbrev sG (m : Team) : State := { idle m with dies := [(0, { Die.reset with locks := [(3, [reqL])] })] }
theorem wit_WaitEnds_5 : ((sG m1).die 0).locks.find 3 = some (reqL :: []) ∧ reqL.granted = false ∧ (sG m1).team 0 0 = some m1 ∧ m1.state = .running ∧
    m1.bars[15]? = some (Barrier.fresh 1 0) ∧ (Barrier.fresh 1 0).own ∧
    ∀ m, (sG { m1 with state := .ended }).team 0 0 = some m → m.state ≠ .running :=
  ⟨rfl, rfl, rfl, rfl, rfl, ⟨rfl, rfl⟩, fun m h => by obtain rfl : { m1 with state := .ended } = m := Option.some.inj h
                                                      decide⟩

/-! ### The hods, the L2 and the network -/

/-- A packet with an arrival on barrier 15: operation, types, REDOP, spaces, extent, source, destination, LAP and W8 to W15. -/
def pk (op st dt redop ss ds ext src dst lap w : Nat) : BitVec 512 :=
  BitVec.ofNat 512 (op + st * 2 ^ 8 + dt * 2 ^ 12 + redop * 2 ^ 19 + 15 * 2 ^ 24 + 2 ^ 28 + ss * 2 ^ 45 + ds * 2 ^ 48 + lap * 2 ^ 56 +
    src % 2 ^ 32 * 2 ^ 64 + src / 2 ^ 32 * 2 ^ 96 + 2 ^ 112 + dst % 2 ^ 32 * 2 ^ 128 + dst / 2 ^ 32 * 2 ^ 160 + 2 ^ 176 +
    ext * 2 ^ 192 + 2 ^ 224 + 2 ^ 240 + w * 2 ^ 256)
/-- Context 1 with a page of 1 GiB at address 0, and the tables that map it. -/
abbrev ctxP : Ctx := { ctx1 with ptroot := 0x1000 }
abbrev farP : Memory := [(0x1000, 1), (0x1001, 0x20), (0x2000, 0x1F)]
abbrev leafP : Leaf := { ctx := 1, base := 0, size := 0x40000000, key := 0, r := true, w := true, comb := true }
/-- A command of queue 0 in slot 127, alone, in a state whose TLBs hold its page. -/
abbrev cmdOf (pkt : BitVec 512) (st : CmdState) : Cmd := { Cmd.accepted pkt 0 0 0 true 1 0 0 with state := st }
abbrev flightOf (cls : Nat) : Flight := { queue := 0, ring := 0, ctx := 1, seq := 0, tr := 0, grp := 0, task := 0, cls := cls, bar := 15, done := false }
abbrev hodOf (k : Cmd) : Hod := { Hod.reset with cmds := [(127, k)], flight := [flightOf 0] }
abbrev sD (k : Cmd) (d : Die) : State :=
  { idle m1 with
    cores := [(0, { Core.reset with teams := [(0, m1)], binds := [(0, 3)], tlb := [leafP], hod := hodOf k })],
    dies := [(0, d)], ctxs := [(1, ctxP)], far := farP }
abbrev sK0 (k : Cmd) : State := sD k { Die.reset with tlb := [leafP] }
theorem coreQuiet (x : Core) (h : x.peerReqs = []) : ∀ c, (Table.get Core.reset [(0, x)] c).peerReqs = [] := by
  intro c
  by_cases hc : c = 0 <;> simp [Table.get, Table.find, hc, h, Core.reset]
theorem dieQuiet (x : Die) (h : x.tileReqs = []) : ∀ c, (Table.get Die.reset [(0, x)] c).tileReqs = [] := by
  intro c
  by_cases hc : c = 0 <;> simp [Table.get, Table.find, hc, h, Die.reset]
theorem inSlot (k : Cmd) (d : Die) (hd : d.tileReqs = []) (hk : k.queue = 0 ∧ k.trec = 0 ∧ k.task = 0) (hb : (Packet.of k.pkt).bar = 15) :
    InSlot (sD k d) 0 127 k (Packet.of k.pkt) m1 (Barrier.fresh 1 0) where
  cmd := rfl
  packet := rfl
  queue := hk.1
  team := by rw [hk.2.1]; rfl
  task := hk.2.2.symm
  bar := by rw [hb]; rfl
  own := ⟨rfl, rfl⟩
  first := by
    intro e he _
    have h : e = (127, k) := by simpa [State.core, Table.get, Table.find] using he
    rw [h]
  poison := rfl
  tiles := dieQuiet _ hd
  peers := coreQuiet _ rfl
  distinct := by simp [State.core, Table.get, Table.find]
/-- What the statements ask of a plain command, as one test. -/
abbrev plainOk (pkt : BitVec 512) (op : Nat) : Bool :=
  let p := Packet.of pkt
  p.bar == 15 && p.op == op && decide (0 < p.total) && p.fence == 0 && p.rcnt == 0 && !p.consume && !p.scaled && p.grain 0 == 1
theorem runsPlain (pkt : BitVec 512) (op : Nat) (h : plainOk pkt op = true) :
    RunsPlain (sK0 (cmdOf pkt .running)) 0 127 op (cmdOf pkt .running) (Packet.of pkt) m1 (Barrier.fresh 1 0) := by
  simp only [plainOk, Bool.and_eq_true, beq_iff_eq, decide_eq_true_eq, Bool.not_eq_true'] at h
  obtain ⟨⟨⟨⟨⟨⟨⟨h1, h2⟩, h3⟩, h4⟩, h5⟩, h6⟩, h7⟩, h8⟩ := h
  exact ⟨⟨inSlot (cmdOf pkt .running) _ rfl ⟨rfl, rfl, rfl⟩ h1, rfl, h2, fun e => CmdState.noConfusion e, h3, rfl, h4, h5, h6, h7⟩, h8⟩
/-- A read that gives a value and changes nothing. -/
abbrev isOk (s : State) (v : Nat) : Got Nat → Bool
  | .ok s' v' => decide (s' = s) && v' == v
  | _ => false
theorem isOk_eq {s : State} {v : Nat} {g : Got Nat} (h : isOk s v g = true) : g = .ok s v := by
  cases g <;> simp_all [isOk]
/-- One packet for each operation, its elements of 8 bytes at the end of the allocation: with what the statement asks of its types and spaces. -/
abbrev pkCopy : BitVec 512 := pk 1 1 1 0 1 1 1 4088 4088 0 0
abbrev pkGather : BitVec 512 := pk 2 5 5 0 0 1 1 0x100 4095 0 (0x100 + 13 * 2 ^ 48 + 2 ^ 64 + 0xFFFF * 2 ^ 96)
abbrev pkScatter (op redop : Nat) : BitVec 512 := pk op 8 8 redop 1 1 1 4088 4088 0 (0x100 + 13 * 2 ^ 48 + 2 ^ 64 + 0xFFFF * 2 ^ 96)
abbrev pkFill : BitVec 512 := pk 5 0 8 0 6 1 1 0 4088 0 0
abbrev pkPrefetch : BitVec 512 := pk 8 0 0 0 0 0 1 0x100 0 0 0
abbrev pkAtomic : BitVec 512 := pk 9 0 8 1 6 1 1 0 4088 0 (5 * 2 ^ 128)
abbrev pkBind : BitVec 512 := pk 6 2 0 0 0 5 1 0 (63 * 2 ^ 42) 0 (0x100 + 13 * 2 ^ 48 + 2 ^ 64)
abbrev pkFree : BitVec 512 := pk 7 0 0 0 0 5 1 0 (63 * 2 ^ 42) 0 0
abbrev pkFence : BitVec 512 := pk 10 0 0 0 0 0 1 0 0 0 0
/-- Every packet passes the checks of R224. -/
theorem wit_CommandOperations_ok : [pkCopy, pkGather, pkScatter 3 0, pkScatter 4 1, pkFill, pkPrefetch, pkAtomic, pkBind, pkFree, pkFence].all
    (fun q => (Packet.of q).ok true) = true := by decide +kernel
theorem wit_CommandOperations_plain : plainOk pkCopy 1 = true ∧ plainOk pkGather 2 = true ∧ plainOk (pkScatter 3 0) 3 = true ∧
    plainOk (pkScatter 4 1) 4 = true ∧ plainOk pkFill 5 = true ∧ plainOk pkPrefetch 8 = true ∧ plainOk pkAtomic 9 = true ∧ plainOk pkBind 6 = true ∧
    plainOk pkFree 7 = true ∧ plainOk pkFence 10 = true := by decide +kernel
/-- Types, spaces and REDOP of each operation whose clause fixes them. -/
theorem wit_CommandOperations_fields :
    [pkCopy, pkGather, pkScatter 3 0, pkScatter 4 1, pkFill, pkPrefetch, pkAtomic].map (fun q =>
      let p := Packet.of q
      (p.typesPair, p.srcType, p.dstType, p.srcSpace, p.dstSpace, p.redop)) =
    [(true, 1, 1, 1, 1, 0), (true, 5, 5, 0, 1, 0), (true, 8, 8, 1, 1, 0), (true, 8, 8, 1, 1, 1), (false, 0, 8, 6, 1, 0), (true, 0, 0, 0, 0, 0),
      (false, 0, 8, 6, 1, 1)] := by decide +kernel
/-- The element at the last eight bytes of the allocation. -/
theorem wit_CommandOperations_scratch :
    ((Packet.of pkCopy).srcAddr 0).1 = 4088 ∧ ((Packet.of pkCopy).dstAddr 0).1 = 4088 ∧ ((Packet.of pkFill).dstAddr 0).1 = 4088 ∧
    (Packet.of pkAtomic).dst = 4088 ∧ (Packet.of (pkScatter 3 0)).dst = 4088 ∧ ((Packet.of (pkScatter 4 1)).srcAddr 0).1 = 4088 ∧ inScratch m1 4088 8 := by
  unfold inScratch
  decide +kernel
/-- The reads of the index lists and of the tables, which the hod does at once, and the entry that the index names. -/
abbrev sOf (q : BitVec 512) : State := sK0 (cmdOf q .running)
theorem wit_CommandOperations_index : farRead (sOf pkGather) 0 1 0x100 2 = .ok (sOf pkGather) 0 ∧
    farRead (sOf (pkScatter 3 0)) 0 1 0x100 2 = .ok (sOf (pkScatter 3 0)) 0 ∧ farRead (sOf (pkScatter 4 1)) 0 1 0x100 2 = .ok (sOf (pkScatter 4 1)) 0 ∧
    farRead (sOf pkGather) 0 1 0x100 1 = .ok (sOf pkGather) 0 ∧ farRead (sOf pkPrefetch) 0 1 0x100 1 = .ok (sOf pkPrefetch) 0 ∧
    [pkGather, pkScatter 3 0, pkScatter 4 1].map (fun q => ((Packet.of q).ilist + 0 * 2, typeBytes (Packet.of q).itype)) =
      [(0x100, 2), (0x100, 2), (0x100, 2)] ∧ (Packet.of pkGather).src + 0 * 1 = 0x100 ∧ ((Packet.of pkPrefetch).srcAddr 0).1 = 0x100 ∧
    (match classify (Packet.of pkGather).itype (Packet.of pkGather).bound (Packet.of pkGather).sentinel 0 with
      | .entry e => e == 0
      | _ => false) = true :=
  ⟨isOk_eq (by decide +kernel), isOk_eq (by decide +kernel), isOk_eq (by decide +kernel), isOk_eq (by decide +kernel), isOk_eq (by decide +kernel),
    by decide +kernel⟩
/-- A COPY and a FILL of four elements of 2 bytes in one aligned 8 bytes, of which all are performed together. -/
abbrev pkCopy4 : BitVec 512 := pk 1 3 3 0 1 1 4 0 4088 0 0
abbrev pkFill4 : BitVec 512 := pk 5 0 3 0 6 1 4 7 4088 0 0
abbrev fieldsOf (q : BitVec 512) : List Nat :=
  let p := Packet.of q
  [(p.ok true).toNat, p.bar, p.op, p.total, p.srcSpace, p.srcType, p.dstType, p.dstSpace, p.redop, p.grain 0]
theorem wit_CommandOperations_group : fieldsOf pkCopy4 = [1, 15, 1, 4, 1, 3, 3, 1, 0, 4] ∧ fieldsOf pkFill4 = [1, 15, 5, 4, 6, 0, 3, 1, 0, 4] := by
  decide +kernel
theorem wit_CommandOperations_places : (List.range 4).all (fun i => let p := Packet.of pkCopy4
    (p.srcAddr i).1 == 2 * i && (p.dstAddr i).1 == 4088 + 2 * i && !p.mayRead (4088 + 2 * i) 2 &&
      ((Packet.of pkFill4).dstAddr i).1 == 4088 + 2 * i) = true ∧ inScratch m1 4094 2 := by
  unfold inScratch
  decide +kernel
/-- GWFREE of a window that is bound and that no command reads. -/
abbrev dieW : Die := { Die.reset with windows := [(63, { ctx := 1, ilist := 0, itype := 13, bound := 1, sentinel := 0, fill := 0, table := 0, etype := 2, len := 1 })] }
theorem wit_CommandOperations_window : InSlot (sD (cmdOf pkFree .running) dieW) 0 127 (cmdOf pkFree .running) (Packet.of pkFree) m1 (Barrier.fresh 1 0) ∧
    (Packet.of pkFree).dst / 2 ^ 42 = 63 ∧ (Packet.of pkBind).dst / 2 ^ 42 = 63 ∧ ((sD (cmdOf pkFree .running) dieW).die 0).windows.find 63 ≠ none ∧
    (sD (cmdOf pkFree .running) dieW).windowRead 0 63 = false ∧ ((sK0 (cmdOf pkBind .running)).die 0).windows.find 63 = none :=
  ⟨inSlot _ _ rfl ⟨rfl, rfl, rfl⟩ (by decide +kernel), by decide +kernel, by decide +kernel, by decide, by decide +kernel, rfl⟩

/-- A packet in queue 0 that takes slot 1; one with an unassigned operation, and one of no elements, each the only command that its group has open. -/
abbrev q0Of (q : BitVec 512) (seq : Nat) : Q0Packet := { pkt := q, tr := 0, grp := 0, task := 0, ctx := 1, seq := seq }
abbrev sQ0 : State :=
  { idle m1 with cores := [(0, { Core.reset with teams := [(0, m1)], hod := { Hod.reset with
    q0 := [q0Of pkCopy 1], cmds := [(0, cmdOf pkCopy .running)] } })] }
theorem wit_HodQueues_1 : sQ0.flushFlights 0 = sQ0 ∧ (sQ0.core 0).hod.cmds.length + (sQ0.core 0).hod.inboxRun.length < 128 ∧
    (sQ0.core 0).hod.inbox = [] ∧ sQ0.hours.power = .p0 ∧ sQ0.hodUp 0 = true ∧
    (sQ0.core 0).hod.q0 = q0Of pkCopy 1 :: [] ∧ (∀ q, (sQ0.core 0).hod.ready.find q = none) ∧
    (Packet.of pkCopy).ok true = true ∧ (Packet.of pkCopy).count ≠ 0 ∧ (sQ0.core 0).hod.cmds.find 1 = none ∧
    ∀ n, n < 1 → (sQ0.core 0).hod.cmds.find n ≠ none := by
  refine ⟨rfl, by decide, rfl, rfl, rfl, rfl, fun _ => rfl, by decide +kernel, by decide +kernel, rfl, ?_⟩
  intro n hn
  obtain rfl : n = 0 := by omega
  exact fun h => nomatch h
abbrev pkBad : BitVec 512 := pk 31 0 0 0 0 0 1 0 0 0 0
abbrev pkZero : BitVec 512 := pk 1 1 1 0 1 1 0 0 0 0 0
abbrev sQ1 (q : BitVec 512) : State :=
  { idle m1 with cores := [(0, { Core.reset with teams := [(0, m1)], hod := { Hod.reset with q0 := [q0Of q 0], flight := [flightOf 0] } })] }
theorem wit_HodQueues_6 : (∀ q, (sQ1 q).flushFlights 0 = sQ1 q ∧ ((sQ1 q).core 0).hod.q0 = q0Of q 0 :: [] ∧ (sQ1 q).team 0 0 = some m1 ∧
      ((sQ1 q).core 0).hod.flight = [flightOf 0] ∧ ((sQ1 q).ctx 1).regions = []) ∧ m1.ids.task = 0 ∧ m1.bars[15]? = some (Barrier.fresh 1 0) ∧
    (Barrier.fresh 1 0).own ∧ (Packet.of pkBad).ok true = false ∧ (Packet.of pkZero).ok true = true ∧ (Packet.of pkZero).count = 0 ∧
    [pkBad, pkZero].map (fun q => ((Packet.of q).bar, (Packet.of q).cls)) = [(15, 0), (15, 0)] :=
  ⟨fun _ => ⟨rfl, rfl, rfl, rfl, rfl⟩, rfl, rfl, ⟨rfl, rfl⟩, by decide +kernel, by decide +kernel, by decide +kernel, by decide +kernel⟩
/-- Ring 7 of one slot whose header is the last 64 bytes of a page of 64 KiB: the slot holds lap 1, nothing, or is frozen; and an empty ring. -/
abbrev ringS (lap tail : Byte) (rs : Table Region) : State :=
  { idle m1 with
    cores := [(0, { Core.reset with teams := [(0, m1)], hod := { Hod.reset with
      queues := [(7, { en := true, logn := 0, ctx := 1, trec := 0, tvalid := true, base := 0x1FFC0 })] } })],
    ctxs := [(1, { ctxP with regions := rs })], far := farP ++ (if tail = 0 then [] else [(0x1FFD8, tail)]) ++ [(0x20007, lap)] }
theorem wit_HodQueues_2 : (∀ lap tail rs, (ringS lap tail rs).flushFlights 0 = ringS lap tail rs) ∧ ∀ lap tail rs, let s := ringS lap tail rs
    ((s.core 0).hod.entry 7).en = true ∧ (s.core 0).hod.ready.find 7 = none ∧ s.hours.power = .p0 ∧ s.hodUp 0 = true :=
  ⟨fun _ _ _ => rfl, fun _ _ _ => ⟨rfl, rfl, rfl, rfl⟩⟩
abbrev rsFrozen : Table Region := [(0, { reg1 with fcount := 1, base := 2 })]
abbrev sRing : State := ringS 1 1 []
abbrev sEmpty : State := ringS 1 0 []
abbrev sLate : State := ringS 2 1 []
abbrev sIce : State := ringS 1 1 rsFrozen
theorem wit_HodQueues_3 : sRing.ringRead 1 (0x1FFC0 + 8) 8 = .ok sRing 0 ∧ sRing.ringRead 1 (0x1FFC0 + 24) 8 = .ok sRing 1 ∧
    sRing.ringRead 1 0x20000 64 = .ok sRing (2 ^ 56) ∧ sEmpty.ringRead 1 (0x1FFC0 + 8) 8 = .ok sEmpty 0 ∧
    sEmpty.ringRead 1 (0x1FFC0 + 24) 8 = .ok sEmpty 0 ∧ sLate.ringRead 1 0x20000 64 = .ok sLate (2 ^ 57) :=
  ⟨isOk_eq (by decide +kernel), isOk_eq (by decide +kernel), isOk_eq (by decide +kernel), isOk_eq (by decide +kernel), isOk_eq (by decide +kernel),
    isOk_eq (by decide +kernel)⟩
theorem wit_HodQueues_7 : sIce.ringRead 1 (0x1FFC0 + 8) 8 = .ok sIce 0 ∧ sIce.ringRead 1 (0x1FFC0 + 24) 8 = .ok sIce 1 ∧
    (match sIce.ringRead 1 0x20000 64 with
      | .stop .. => true
      | _ => false) = true := ⟨isOk_eq (by decide +kernel), isOk_eq (by decide +kernel), by decide +kernel⟩
/-- A task whose gang has one record. -/
abbrev recIn : ContRec := { data := 0, task := 3, arrived := 0, spilled := none, poisoned := false }
abbrev taskIn : Task := { Task.fresh { gang0 with records := [recIn] } 1 false with state := .opened, teams := [(0, 0)] }
abbrev sIn : State :=
  { idle m1 with
    cores := [(0, { Core.reset with teams := [(0, m1)], hod := { Hod.reset with inbox := [0] } })],
    sched := { Sched.reset with launches := [(0, launch0)], tasks := [(0, taskIn)] } }
theorem wit_HodQueues_4 : sIn.hodUp 0 = true ∧ (sIn.core 0).hod.inbox = 0 :: [] ∧ (sIn.core 0).hod.inboxRun = [] ∧
    (sIn.core 0).hod.cmds.length < 128 ∧ (sIn.takeInbox 0).sched.tasks.find 0 = some taskIn ∧
    (sIn.takeInbox 0).tileOpen 1 0 (((sIn.takeInbox 0).grant 1 0).1 + ((sIn.takeInbox 0).blockOf 0).inbox + 0 * ((sIn.takeInbox 0).blockOf 0).inboxSize) 128 = true ∧
    ((sIn.takeInbox 0).die 0).tileReqs = [] ∧ ((sIn.takeInbox 0).die 0).counts = [] ∧
    (sIn.takeInbox 0).acquireReady 1 0 ((sIn.takeInbox 0).affinityKey 1 (recAffinity recIn.data)) 4 = true :=
  ⟨rfl, rfl, rfl, by decide, rfl, by decide +kernel, rfl, rfl, by decide +kernel⟩
/-- A command that has performed its one element. -/
abbrev cmdEnd : Cmd := { cmdOf pkCopy .running with count := 1, bytes := 8 }
theorem wit_HodQueues_5 : InSlot (sK0 cmdEnd) 0 127 cmdEnd (Packet.of pkCopy) m1 (Barrier.fresh 1 0) ∧ cmdEnd.state ≠ .suspended ∧
    (Packet.of pkCopy).total ≤ cmdEnd.count ∧ (Packet.of pkCopy).fence = 0 ∧ (Packet.of pkCopy).cls = 0 ∧
    ((sK0 cmdEnd).core 0).hod.flight = [flightOf 0] ∧ ((sK0 cmdEnd).ctx cmdEnd.ctx).regions = [] :=
  ⟨inSlot _ _ rfl ⟨rfl, rfl, rfl⟩ (by decide +kernel), by decide, by decide +kernel, by decide +kernel, by decide +kernel, rfl, rfl⟩
/-- A held command whose hold ends now. -/
abbrev cmdHeld : Cmd := { cmdOf pkCopy .suspended with kind := 7 }
theorem wit_HeldCommands_1 : InSlot (sK0 cmdHeld) 0 127 cmdHeld (Packet.of pkCopy) m1 (Barrier.fresh 1 0) ∧ cmdHeld.state = .suspended ∧
    cmdHeld.kind ∈ [2, 3, 4, 7] ∧ ((sK0 cmdHeld).core 0).hod.flight = [flightOf 0] ∧ cmdHeld.deadline ≤ (sK0 cmdHeld).ns :=
  ⟨inSlot _ _ rfl ⟨rfl, rfl, rfl⟩ (by decide +kernel), rfl, by decide, rfl, Nat.zero_le _⟩
/-- A message of two packets of which one is acknowledged, and a GATHER from device memory. -/
abbrev pkSend : BitVec 512 := pk 1 1 1 0 1 4 1024 0 0 0 0
abbrev cmdSend : Cmd := { cmdOf pkSend .running with message := some 4096 }
theorem wit_HeldCommands_2 : InSlot (sK0 cmdSend) 0 127 cmdSend (Packet.of pkSend) m1 (Barrier.fresh 1 0) ∧ cmdSend.message = some 4096 ∧
    cmdSend.state ≠ .suspended ∧ cmdSend.stopped = false ∧ cmdSend.count < (Packet.of pkSend).total ∧ (Packet.of pkSend).op ≠ 8 ∧
    InSlot (sK0 (cmdOf pkGather .running)) 0 127 (cmdOf pkGather .running) (Packet.of pkGather) m1 (Barrier.fresh 1 0) ∧
    (Packet.of pkGather).srcSpace = 0 ∧ (Packet.of pkGather).op ≠ 8 ∧ (cmdOf pkGather .running).count < (Packet.of pkGather).total :=
  ⟨inSlot _ _ rfl ⟨rfl, rfl, rfl⟩ (by decide +kernel), rfl, by decide, rfl, by decide +kernel, by decide +kernel,
    inSlot _ _ rfl ⟨rfl, rfl, rfl⟩ (by decide +kernel), by decide +kernel, by decide +kernel, by decide +kernel⟩
theorem wit_HeldCommands_told : (sK0 cmdHeld).ownerSession 1 = some 0 ∧ ((sK0 cmdHeld).host.sessions.find 0).any (fun x => x.events.length < 4096) = true := by
  decide
/-- The two times of a message's RETRY of 1,000 us: before it and after. -/
theorem wit_HeldCommands_3 : ¬ (1000 * 1000 ≤ (sK0 cmdSend).ns) ∧ cmdSend.sent = 0 ∧
    (Table.get SendQ.reset (sK0 cmdSend).host.sendQs ((Packet.of pkSend).dst / 2 ^ 4 % 256)).retry = 1000 := by decide +kernel
/-- A sector on its way to a die that is not its home and to its home, and a dirty one. -/
abbrev sSec (d : Nat) (x : Sector) : State := { sK0 cmdEnd with dies := [(d, { Die.reset with l2 := [(4, x)] })] }
abbrev secP : Sector := Sector.empty 1 0x100 .pending
theorem wit_MemorySteps_1 : ∀ d ∈ [0, 1], ((sSec d secP).die d).l2.find 4 = some secP ∧ secP.st = .pending ∧ (sSec d secP).homeUp (64 * 4) = true ∧
    (sSec d secP).hours.poison = [] ∧ 4 / 2 ^ 46 ≠ 2 ∧ ((sSec d secP).ctx 1).effectiveOn d 0x100 = .shared ∧
    ((sSec d secP).homeDie (64 * 4) = 0) ∧ secP.dirty = 0 ∧ (sSec d secP).farKeys.find 4 = none := by decide +kernel
abbrev secD : Sector := { Sector.empty 1 0x100 .dirty with valid := 1, dirty := 1, data := 7 }
theorem wit_MemorySteps_2 : ((sSec 0 secD).die 0).l2.find 4 = some secD ∧ secD.st ≠ .pending ∧ ((sSec 0 secD).die 0).l2counts.find (4 / 4) = none ∧
    (sSec 0 secD).homeUp (64 * 4) = true ∧ Keyed (sSec 0 secD) 4 ((sSec 0 secD).cryptOf 1 0x100) ∧ NoRings (sSec 0 secD) := by
  refine ⟨rfl, by decide, rfl, by decide +kernel, (fun _ h => by cases h), ⟨?_, ?_, ?_⟩⟩ <;> decide
/-- A page of 2 MiB that is demanded, with a pool that holds it and without; its fault as it comes and once it has been taken up. -/
abbrev faultP (begun : Option (Nat × Nat)) : PageFault := { ctx := 1, base := 0, size := 0x200000, va := 0x1234, begun := begun }
abbrev sPage (n : Nat) (begun : Option (Nat × Nat)) : State :=
  { idle m1 with
    ctxs := [(1, { ctx1 with ptroot := 0x1000, poolBase := 32, poolLen := n })],
    sched := { Sched.reset with faults := [faultP begun] },
    far := [(0x1000, 1), (0x1001, 0x20), (0x2000, 1), (0x2001, 0x30), (0x3006, 0x80)] }
theorem wit_MemorySteps_3 : (sPage 32 none).sched.faults.find? (fun (x : PageFault) => x.covers 1 0x1234) = some (faultP none) ∧
    (sPage 32 none).sched.stopped = false ∧ (sPage 32 none).hours.power ≠ .p3 ∧
    (sPage 32 none).sched.faults.find? (fun (x : PageFault) => x.begun.isNone) = some (faultP none) ∧
    ((sPage 32 none).sched.faults.filter (fun (x : PageFault) => x.begun.isSome)).length < 8 ∧ (sPage 32 none).changing 1 0x1234 = none ∧
    (sPage 32 none).walk 1 0x1234 = .fault 0 0x200000 ∧ (sPage 32 none).entryAt 1 0x1234 = (0x3000, 2 ^ 55, 1) := by decide +kernel
theorem wit_MemorySteps_8 : ∀ n ∈ [0, 32], let s := sPage n (some (0x3000, 2 ^ 55))
    s.sched.faults.find? (fun (x : PageFault) => x.covers 1 0x1234) = some (faultP (some (0x3000, 2 ^ 55))) ∧ (2 ^ 55).testBit 0 = false ∧
    s.pageWaiters 1 0 0x200000 = [] ∧ (s.ctx 1).poolFind 0x200000 = (if n = 32 then some 0x200000 else none) ∧ 0x200000 % 2 ^ 16 = 0 ∧
    s.plainWord (s.ctx 1).keyNo 0x3000 = 2 ^ 55 ∧ 0x3000 % 8 = 0 ∧ 0x3000 / 2 ^ 52 ≠ 2 ∧ 0x3000 < 0x200000 ∧ s.ownerSession 1 = some 0 := by decide +kernel
theorem wit_MemorySteps_4 : NoRings (sPage 32 (some (0x3000, 2 ^ 55))) ∧ Keyed (sPage 32 (some (0x3000, 2 ^ 55))) (0x3000 / 64) 0 ∧
    ∀ d, ((sPage 32 (some (0x3000, 2 ^ 55))).die d).state = .online := by
  refine ⟨⟨?_, ?_, ?_⟩, fun _ h => (by cases h), fun _ => rfl⟩ <;> decide
/-- A receive queue of one slot of 128 bytes, and FREED at 0x100. -/
abbrev recv1 : RecvQ := { RecvQ.reset with en := true, ctx := 1, job := 9, logz := 7, base := 0x10000, freed := 0x100 }
abbrev sRecv (e : RecvQ) : State := { sK0 cmdEnd with host := { (sK0 cmdEnd).host with recvQs := [(255, e)] } }
abbrev got (g : HostGot) : Bool := match g with
  | .ok .. => true
  | _ => false
/-- A packet of one byte that is a whole message, in order under both modes; one of 4,097 bytes; and under ROD one that does not come first. -/
theorem wit_MemorySteps_5 : (sRecv recv1).recvQ 255 = recv1 ∧ (sRecv recv1).live 1 = true ∧ (sRecv recv1).slotFree recv1 recv1.h = true ∧
    (sRecv { recv1 with h := 1 }).slotFree { recv1 with h := 1 } 1 = false ∧ ((sRecv RecvQ.reset).recvQ 255).en = false ∧
    (∀ rod : Bool, recv1.inOrder rod 3 0 0 none = true) ∧ recv1.inOrder true 3 0 1 none = false ∧ 4096 < (List.replicate 4097 (0 : Byte)).length ∧
    isOrdered 0x1FF = true ∧ isOrdered 0xFF = false ∧
    recv1.headerWaits { src := 3, sq := 0, mid := 0, n := 0, landed := 1, rod := true } = false ∧
    got (landBytes (sRecv recv1) 1 3 (0x10000 + 64) [7]) = true ∧ got (headerPlace (sRecv recv1) 1 3 0x10000) = true := by decide +kernel
/-- A peer entry that exports the first 64 KiB. -/
abbrev peer1 : PeerEntry := { PeerEntry.reset with en := true, expr := true, expw := true, job := 9, endpoint := 3, explen := 1 }
abbrev sPeer : State := { sK0 cmdEnd with host := { (sK0 cmdEnd).host with peers := [(15, peer1)] } }
theorem wit_MemorySteps_6 : sPeer.exportOf 3 9 (2 ^ 16 - 8) 8 true = some 1 ∧ sPeer.exportOf 3 9 (2 ^ 16 - 8) 8 false = some 1 ∧
    sPeer.exportOf 3 9 (2 ^ 16 - 7) 8 true = none ∧ sPeer.ownerSession 1 = some 0 := by decide +kernel
theorem wit_MemorySteps_7 : (match hostRead sPeer 1 0xFFF8 8, hostWrite sPeer 1 0xFFF8 5 8 3,
      hostAtomic sPeer 1 0xFFF8 8 3 { op := 1, type := 8, operand := 1, comparand := 0 } with
    | .ok .., .ok .., .ok .. => true
    | _, _, _ => false) = true := by decide +kernel

/-! ### Launches, work graphs, tasks -/

/-- A block of one team of one group of 8 registers at 0x10000, or a node with the NODEID 5; every barrier expects one arrival; COMPL is 0x4000. -/
def blk (node : Bool) : Block :=
  BitVec.ofNat 2048 (1 + 2 ^ 8 + node.toNat * 2 ^ 20 + 0x10000 * 2 ^ 64 + 4 * 2 ^ 128 + 2 ^ 192 + 2 ^ 196 + 2 ^ 200 + 0x4000 * 2 ^ 320 + 0x10000 * 2 ^ 384 +
    2 ^ 432 + 2 ^ 440 + (List.range 16).foldl (fun a j => a + 2 ^ (896 + 48 * j)) 0 + node.toNat * (5 * 2 ^ 1664 + 2 ^ 1681 + 2 ^ 1696 + 2 ^ 1716))
/-- The block's bytes in a ring of one slot at 0x20000, with READ 0 and TAIL 1. -/
abbrev blkCells (node : Bool) : Memory :=
  [(0x20018, 1)] ++ ((List.range 256).map (fun k => (0x20100 + k, (blk node).extractLsb' (8 * k) 8))).filter (fun e => e.2 != 0)
abbrev sLaunch (node : Bool) : State :=
  { idle m1 with
    cores := [], ctxs := [(1, { ctxP with cores := 1 })], far := farP ++ blkCells node,
    sched := { Sched.reset with queues := [(15, { LaunchQ.reset with en := true, ctx := 1, base := 0x20000 })] } }
theorem wit_LaunchSteps_1 (node : Bool) :
    let s := sLaunch node
    let e := Table.get LaunchQ.reset s.sched.queues 15
    e.en = true ∧ e.frozen = false ∧ s.sched.stopped = false ∧ s.hours.power = .p0 ∧ s.wakeUp = s ∧
    s.ringRead 1 0x20008 8 = .ok s 0 ∧ s.ringRead 1 0x20018 8 = .ok s 1 ∧
    s.ringRead 1 0x20100 64 = .ok s ((blk node).toNat % 2 ^ 512) ∧ (blk node).toNat % 2 ^ 512 / 2 ^ 8 % 2 ^ 8 = 1 ∧
    s.ringRead 1 0x20140 192 = .ok s ((blk node).toNat / 2 ^ 512) := by
  cases node <;> exact ⟨rfl, rfl, rfl, rfl, rfl, isOk_eq (by decide +kernel), isOk_eq (by decide +kernel), isOk_eq (by decide +kernel), by decide +kernel,
    isOk_eq (by decide +kernel)⟩
/-- A part of an access that gives a value with a property. -/
abbrev gotIs {α : Type} (p : State → α → Bool) : Got α → Bool
  | .ok s v => p s v
  | _ => false
theorem gotIs_ex {α : Type} {p : State → α → Bool} {g : Got α} (h : gotIs p g = true) : ∃ s v, g = .ok s v ∧ p s v = true := by
  cases g
  · exact ⟨_, _, rfl, h⟩
  all_goals cases h
/-- The checks of R303 pass, for a launch and for a node; a launch of a context without cores is rejected; and 4,096 nodes are live. -/
abbrev lFresh (node : Bool) : Launch := Launch.fresh (blk node) 1 15 0x20000 0 ((sLaunch node).teamDies 1)
abbrev sNoCore : State := { sLaunch false with ctxs := [(1, ctxP)] }
abbrev checks (s : State) (l : Launch) (ok : Bool) : Bool :=
  gotIs (fun s1 (v : Nat × Table Nat) => (v.1 == 0) == ok && s1.courseReady 1 (fun _ => false) && decide (s1.nodeCount 1 < 4096)) (s.checkLaunch 0 l)
theorem wit_LaunchSteps_2 : checks (sLaunch false) (lFresh false) true = true ∧ checks (sLaunch true) (lFresh true) true = true ∧
    checks sNoCore (lFresh false) false = true ∧ (blk false).node = false ∧ (blk true).node = true := by decide +kernel
theorem wit_LaunchSteps_nodes : 4096 ≤ { sLaunch true with sched := { (sLaunch true).sched with
      launches := [(1, lFresh true)], graph := List.replicate 4096 (1, { grid := 1, state := .live, predEnds := 0, pallets := [] }) } }.nodeCount 1 := by
  decide +kernel
/-- A ring whose slot is still empty, and one whose slot holds an older block. -/
theorem wit_LaunchSteps_6 : (let s : State := { sLaunch false with far := farP }
    s.ringRead 1 0x20018 8 = .ok s 0) ∧ (let s : State := { sLaunch false with far := farP ++ [(0x20018, 1), (0x20101, 9)] }
    s.ringRead 1 0x20100 64 = .ok s (9 * 256)) := ⟨isOk_eq (by decide +kernel), isOk_eq (by decide +kernel)⟩
/-- A waiting gang that the one core of its context takes, and one whose context has no core. -/
abbrev sGang (has : Bool) : State :=
  { sLaunch false with
    ctxs := [(1, { ctxP with cores := if has then 1 else 0 })],
    sched := { Sched.reset with launches := [(0, { launch0 with block := blk false })], gangs := [gang0], preempt := false } }
theorem wit_LaunchSteps_3 : ∀ has : Bool, (sGang has).sched.stopped = false ∧ (sGang has).hours.power = .p0 ∧
    (sGang has).chooseGang 1 = some gang0 ∧ (sGang has).sched.launches.find 0 = some { launch0 with block := blk false } ∧
    (blk false).stream = false ∧ (sGang has).wakeUp = sGang has ∧ ((sGang has).bindGang gang0).isSome = has ∧ (sGang has).sched.preempt = false := by decide +kernel
/-- The record of a bound task, alone, and beside a valid one with the same registers. -/
abbrev recB (b : Nat) : BitVec 512 := BitVec.ofNat 512 (b + 2 ^ 8 + 2 ^ 18)
abbrev teamsB (clash : Bool) : List (Nat × Nat) := if clash then [(0, 0), (0, 47)] else [(0, 0)]
abbrev sRec (clash : Bool) : State :=
  { sLaunch false with
    cores := [(0, { Core.reset with binds := [(0, recB 0), (47, recB 1)] })],
    sched := { Sched.reset with launches := [(0, { launch0 with block := blk false })], tasks := [(3, { Task.fresh gang0 1 false with teams := teamsB clash })] } }
theorem wit_LaunchSteps_4 : ∀ clash : Bool,
    (sRec clash).sched.tasks.find? (fun t => t.2.teams.contains (0, 0)) = some (3, { Task.fresh gang0 1 false with teams := teamsB clash }) ∧
    ((sRec clash).bindRec 0 0).getLsbD 0 = false ∧ ((sRec clash).bindRec 0 0).getLsbD 22 = false ∧
    (sRec clash).team 0 0 = none ∧ (sRec clash).sched.stopped = false ∧ (sRec clash).recordClash 0 0 = clash := by decide +kernel
/-- A bound task whose records are all valid. -/
abbrev sGo : State :=
  { idle m1 with
    cores := [(0, { Core.reset with teams := [(0, m1)], binds := [(0, 1)] })],
    sched := { Sched.reset with launches := [(0, launch0)], tasks := [(3, { task0 with state := .bound })] } }
theorem wit_LaunchSteps_5 : sGo.sched.tasks.find 3 = some { task0 with state := .bound } ∧ sGo.sched.stopped = false ∧ task0.inboxDone = true ∧
    (∀ p ∈ task0.teams, (sGo.bindRec p.1 p.2).getLsbD 0 = true) ∧ (∃ p ∈ task0.teams, (sGo.bindRec p.1 p.2).getLsbD 1 = false) ∧
    ∀ y ∈ sGo.sched.tasks, y.1 < 3 → y.2.state ≠ .bound := by decide +kernel
/-- A STREAM launch of three clusters, of which the next one can be bound, with no task yet. -/
abbrev blkStream : Block := blk false ||| (1 <<< 19) ||| (2 <<< 200)
abbrev sStream : State := { sGang true with sched := { (sGang true).sched with launches := [(0, { launch0 with block := blkStream })] } }
theorem wit_LaunchSteps_7 : blkStream.stream = true ∧ blkStream.clusters = 3 ∧ sStream.chooseGang 1 = some gang0 ∧
    (sStream.wakeUp.bindGang gang0).isSome = true ∧ (sStream.taskFor gang0 blkStream).isSome = false ∧ gang0.first + 1 < blkStream.clusters := by
  decide +kernel
/-- A record for NODEID 5 from grid 0, whose block names it as a successor or does not; grid 1 is the node, which takes two records. -/
abbrev tpost0 : TPost :=
  { core := 0, tr := 0, grp := 0, task := 3, grid := 0, ctx := 1, awaits := [], data := BitVec.ofNat 512 (5 * 2 ^ 48), waiting := false }
abbrev node1 (st : NodeState) (p : Table (List ContRec)) : Node := { grid := 1, state := st, predEnds := 0, pallets := p }
abbrev sGraph (succ : Nat) (st : NodeState) (p : Table (List ContRec)) : State :=
  { sK0 cmdEnd with
    cores := [], ns := 1000,
    sched := { Sched.reset with
      launches := [(0, { launch0 with block := BitVec.ofNat 2048 (succ * (2 ^ 1712 + 5 * 2 ^ 1728)) }), (1, { launch0 with block := blk true, node := 5 })],
      nodes := [(nodeKey 1 5, 1)], graph := [(1, node1 st p)], tposts := [tpost0] } }
theorem wit_GraphSteps_1 : ∀ named : Bool,
    let s := sGraph named.toNat .live []
    s.sched.tposts[0]? = some tpost0 ∧ s.postWaits tpost0 = false ∧ (tpost0.data.extractLsb' 48 16).toNat = 5 ∧
    s.postedBefore 0 tpost0 (s.homeSlice (s.affinityKey 1 (recAffinity tpost0.data))) = false ∧
    s.releaseReady 1 0 (s.affinityKey 1 (recAffinity tpost0.data)) 4 = true ∧
    (s.succsOf 0).contains 5 = named ∧ s.nodeNamed 1 5 = some (1, node1 .live []) ∧
    s.storedAt (s.homeSlice (s.affinityKey 1 (recAffinity tpost0.data))) < 2048 ∧ 0 + 1 < (s.blockOf 1).coal ∧ (s.blockOf 1).preds = 0 := by
  decide +kernel
/-- A record that has waited for the node's timer of 1 microsecond. -/
abbrev rec0 : ContRec := { data := tpost0.data, task := 3, arrived := 0, spilled := none, poisoned := false }
theorem wit_GraphSteps_2 :
    let s := sGraph 1 .live [(7, [rec0])]
    s.nodeNamed 1 5 = some (1, node1 .live [(7, [rec0])]) ∧ Table.get [] (node1 .live [(7, [rec0])]).pallets 7 = rec0 :: [] ∧
    (s.blockOf 1).timer ≠ 0 ∧ rec0.arrived + (s.blockOf 1).timer * 1000 ≤ s.ns ∧ s.sched.graph.find 1 = some (node1 .live [(7, [rec0])]) := by
  decide +kernel
theorem wit_GraphSteps_3 : (sGraph 1 .live []).owns 1 1 = false ∧ (sGraph 1 .live []).owns 0 1 = true ∧ (sGraph 1 .live []).live 1 = true ∧
    (sGraph 1 .live []).nodeNamed 1 5 = some (1, node1 .live []) := by decide +kernel
/-- The record's slice holds 2,048 records, with a spill area and without. -/
abbrev sFullSlice (spill : Nat) : State :=
  let s := sGraph 1 .live []
  { s with ctxs := [(1, { ctxP with spill := spill, spillLen := 1 })],
           sched := { s.sched with graph := [(1, node1 .live []), (2, { node1 .live [(s.homeSlice (s.affinityKey 1 (recAffinity tpost0.data)), List.replicate 2048 rec0)] with grid := 2 })] } }
theorem wit_GraphSteps_6 : (sFullSlice 0).storedAt ((sFullSlice 0).homeSlice ((sFullSlice 0).affinityKey 1 (recAffinity tpost0.data))) = 2048 ∧
    (match (sFullSlice 0x30000).spillRecord 1 tpost0.data, (sFullSlice 0).spillRecord 1 tpost0.data with
      | .ok _ k, .refused .. => k == 0
      | _, _ => false) = true := by decide +kernel
/-- A record at 0 and a ring's DONE that can be written, with nothing to drain. -/
theorem mayEnd {s : State} {grid : Nat} {l : Launch} (h1 : (match schedPlace s l.ctx l.block.compl with
    | .wait _ => false
    | _ => true) = true) (h2 : s.wordReady l.ctx (l.ring + 16) = true) (h3 : s.courseReady l.ctx (fun k => k.launch == grid) = true) : MayEnd s grid l :=
  ⟨fun _ s1 h => (by rw [h] at h1; cases h1), h2, h3⟩
abbrev sNoPost (s : State) : State := { s with sched := { s.sched with tposts := [] } }
theorem wit_GraphSteps_4 :
    let n := node1 (.cancelling true) []
    let s := sNoPost (sGraph 1 (.cancelling true) [])
    let l : Launch := { launch0 with block := blk true, node := 5 }
    s.nodeNamed 1 5 = some (1, n) ∧ s.sched.launches.find 1 = some l ∧ n.held = [] ∧ s.sched.stopped = false ∧ n.state = .cancelling true ∧
    s.busyGrid 1 = false ∧ (∀ r ∈ s.sched.tposts, r.grid ≠ 1) ∧ MayEnd s 1 l :=
  ⟨by decide +kernel, rfl, rfl, rfl, rfl, by decide +kernel, by decide, mayEnd (by decide +kernel) (by decide +kernel) (by decide +kernel)⟩
/-- A launch that was rejected with REASON 12, and one that ends with nothing left. -/
abbrev lEnd (rejected : Bool) : Launch := { launch0 with reason := if rejected then 12 else 0 }
abbrev sEnd (rejected : Bool) : State := { sK0 cmdEnd with sched := { Sched.reset with launches := [(0, lEnd rejected)] } }
theorem wit_GraphSteps_5 (rejected : Bool) : (sEnd rejected).sched.launches.find 0 = some (lEnd rejected) ∧ (lEnd rejected).ended = false ∧
    (sEnd rejected).sched.graph.find 0 = none ∧ (sEnd rejected).sched.stopped = false ∧ (sEnd rejected).busyGrid 0 = false ∧
    (∀ r ∈ (sEnd rejected).sched.tposts, r.grid ≠ 0) ∧ MayEnd (sEnd rejected) 0 (lEnd rejected) ∧ (sEnd rejected).ownerSession 1 = some 0 := by
  cases rejected <;> exact ⟨rfl, rfl, rfl, rfl, by decide +kernel, by decide, mayEnd (by decide +kernel) (by decide +kernel) (by decide +kernel),
    by decide +kernel⟩
/-- A task whose watchdog ends now; one whose team has stopped; one that has reported. -/
abbrev sTask (m : Team) (x : Task) : State :=
  { idle m with ns := 100000000, sched := { Sched.reset with launches := [(0, launch0)], tasks := [(0, x)] } }
theorem wit_TaskSteps_1 : (sTask m1 task0).sched.tasks.find 0 = some task0 ∧ task0.state = .opened ∧
    task0.watch + (sTask m1 task0).sched.watchdog * 1000000 ≤ (sTask m1 task0).ns ∧ (sTask m1 task0).team 0 0 = some m1 ∧ m1.state = .running := by
  decide +kernel
abbrev mStop : Team := { m1 with state := .stopped 9 0x10204 0 5 }
theorem wit_TaskSteps_2 : (sTask mStop task0).sched.tasks.find 0 = some task0 ∧ task0.failed = false ∧ (sTask mStop task0).sched.stopped = false ∧
    (sTask mStop task0).sched.launches.find 0 = some launch0 ∧ task0.teams ≠ [] ∧
    ∃ p ∈ task0.teams, ∃ m, (sTask mStop task0).team p.1 p.2 = some m ∧ ∃ c pc a n, m.state = .stopped c pc a n :=
  ⟨rfl, rfl, rfl, rfl, by decide, (0, 0), by decide, _, rfl, _, _, _, _, rfl⟩
/-- A STREAM task between clusters whose watchdog has expired. -/
abbrev taskW : Task := { task0 with teams := [], summary := { task0.summary with watchdog := true } }
theorem wit_TaskSteps_5 : (sTask m1 taskW).sched.tasks.find 0 = some taskW ∧ taskW.failed = false ∧ taskW.summary.watchdog = true ∧ taskW.teams = [] :=
  ⟨rfl, rfl, rfl, rfl⟩
theorem wit_TaskSteps_3 : (sTask mStop task0).team 0 0 = some mStop ∧ (sTask mStop task0).stateHeld 0 0 mStop = false := by decide +kernel
theorem wit_TaskSteps_4 : ∀ b : Bool, (sTask m1 { task0 with state := .stopping b }).sched.tasks.find 0 = some { task0 with state := .stopping b } ∧
    (sTask m1 { task0 with state := .stopping b }).taskTurn 0 = false ∧ (sTask m1 { task0 with state := .stopping b }).sched.stopped = false := by decide +kernel

/-! ### Contexts, regions, the host, the keystone -/

/-- A mailbox with an operation of session 0. -/
abbrev boxOf (op ctx idx a0 a1 : Nat) : Mailbox := { Mailbox.reset with op := op, ctx := ctx, idx := idx, arg0 := a0, arg1 := a1, busy := true }
abbrev sBox (b : Mailbox) (k : Ctx) : State := { sK0 cmdEnd with cores := [], dies := [], box := b, ctxs := [(1, k)] }
/-- What `BoxRuns` asks, as a test. -/
abbrev runsBox (s : State) (b : Mailbox) (op : Nat) : Bool :=
  b.busy && !b.begun && b.op == op && b.session == 0 && decide (1 ≤ b.ctx ∧ b.ctx ≤ 64) && (s.ctx b.ctx).state == .live && (s.ctx b.ctx).owner == s.ownerOf 0
theorem boxRuns {s : State} {b : Mailbox} {op : Nat} (h : runsBox s b op = true) : BoxRuns s b 0 op := by
  simp only [runsBox, Bool.and_eq_true, Bool.not_eq_true', beq_iff_eq, decide_eq_true_eq] at h
  obtain ⟨⟨⟨⟨⟨⟨h1, h2⟩, h3⟩, h4⟩, h5⟩, h6⟩, h7⟩ := h
  exact ⟨h1, h2, h3, h4, h5, h6, h7⟩
/-- An image of zeros, read and the state as it was. -/
abbrev imageOf (s : State) : Got (Option (BitVec 1024)) → Bool
  | .ok s' (some i) => decide (s' = s) && i == 0
  | _ => false
theorem imageIs {s : State} {g : Got (Option (BitVec 1024))} (h : imageOf s g = true) : g = .ok s (some 0) := by
  unfold imageOf at h
  split at h <;> simp_all
/-- An image of zeros in the last 128 bytes of HBM, for the context 64. -/
theorem wit_ContextSteps_create :
    let s := sBox (boxOf 1 64 0 (Config.hbmBytes - 128) 0) ctxP
    s.box.busy = true ∧ s.box.begun = false ∧ s.box.op = 1 ∧ s.box.session = 0 ∧ s.schedUp = true ∧ 1 ≤ s.box.ctx ∧ s.box.ctx ≤ 64 ∧
    (s.ctx 64).state = .free ∧ s.imageOk 64 0 = true ∧ s.keySlotsLeft = true := by decide +kernel
theorem wit_ContextSteps_image : let s := sBox (boxOf 1 64 0 (Config.hbmBytes - 128) 0) ctxP
    s.readImage s.box.arg0 = .ok s (some 0) := imageIs (by decide +kernel)
/-- The same with 1,023 shared keys beside the live context's. -/
theorem wit_ContextSteps_full : let s := { sBox (boxOf 1 64 0 (Config.hbmBytes - 128) 0) ctxP with
      keystone := { Keystone.reset with shared := List.replicate 1023 (7, 1, 0) } }
    s.readImage s.box.arg0 = .ok s (some 0) ∧ (s.box.busy = true ∧ s.schedUp = true ∧ (s.ctx 64).state = .free ∧ s.imageOk 64 0 = true ∧ s.keySlotsLeft = false) :=
  ⟨imageIs (by decide +kernel), by decide +kernel⟩
theorem wit_ContextSteps_key : ((sBox (boxOf 1 1 0 0 0) { ctxP with state := .creating }).ctx 1).state = .creating ∧
    (sBox (boxOf 1 1 0 0 0) { ctxP with state := .creating }).box.busy = true ∧
    (sBox (boxOf 1 1 0 0 0) { ctxP with state := .creating }).hours.power ≠ .p3 := ⟨rfl, rfl, by decide⟩
theorem wit_ContextSteps_runs : ∀ op ∈ [2, 3, 6, 7, 8], BoxRuns (sBox (boxOf op 1 255 0 0) ctxP) (sBox (boxOf op 1 255 0 0) ctxP).box 0 op := by
  intro op hop
  refine boxRuns ?_
  revert op
  decide +kernel
theorem wit_ContextSteps_up : ∀ op, (sBox (boxOf op 1 255 0 0) ctxP).schedUp = true := fun _ => rfl
theorem wit_ContextSteps_teardown : ((sBox (boxOf 2 1 0 0 0) { ctxP with state := .tearing }).ctx 1).state = .tearing ∧
    (sBox (boxOf 2 1 0 0 0) { ctxP with state := .tearing }).ctxBusy 1 = false := by decide +kernel
/-- A region entry in use, one that takes the greatest range with no key, and a Dirty sector of its range whose home is out of service. -/
theorem wit_ContextSteps_setregion : ((sBox (boxOf 3 1 255 0 0) { ctxP with regions := [(255, { reg1 with fcount := 1 })] }).region 1 255).fcount ≠ 0 ∧
    ((sBox (boxOf 3 1 255 0 0) ctxP).region 1 255 = Region.reset) ∧
    regionOf (sBox (boxOf 3 1 255 1 (2 ^ 32 - 1)) ctxP) 7 1 (2 ^ 32 - 1) = some { Region.reset with valid := true, size := 2 ^ 32 - 1 } ∧
    (sBox (boxOf 3 1 255 0 1) ctxP).rangeDrains 1 Region.reset = true ∧ (sBox (boxOf 3 1 255 0 1) ctxP).rangeDrains 1 reg1 = true ∧
    { sK0 cmdEnd with dies := [(0, { Die.reset with state := .testing }), (1, { Die.reset with l2 := [(4, secD)] })] }.rangeDrains 1 reg1 = false := by
  decide +kernel
/-- A range that ends at 2^48, and TLBs of pages below it. -/
theorem wit_ContextSteps_inval : let s := { sK0 cmdEnd with box := boxOf 6 1 0 (2 ^ 48 - 1) 1 }
    s.box.arg0 + s.box.arg1 ≤ 2 ^ 48 ∧ (∀ c, ∀ l ∈ (s.core c).tlb, l.base < 2 ^ 48 ∧ 0 < l.size) ∧ ∀ d, ∀ l ∈ (s.die d).tlb, l.base < 2 ^ 48 ∧ 0 < l.size := by
  refine ⟨by decide, ?_, ?_⟩
  · intro c
    by_cases hc : c = 0
    · subst hc; decide
    · simp [State.core, Table.get, Table.find, hc, Core.reset]
  · intro c
    by_cases hc : c = 0
    · subst hc; decide
    · simp [State.die, Table.get, Table.find, hc, Die.reset]
theorem wit_ContextSteps_discard : ∀ st ∈ [TaskState.opened, .stopping true, .bound, .committed],
    let x : Task := { task0 with state := st }
    let s : State := { sBox (boxOf 7 1 0 0 0) ctxP with sched := { Sched.reset with tasks := [(0, x)] } }
    runsBox s s.box 7 = true ∧ s.sched.tasks.find 0 = some x ∧ x.ctx = s.box.ctx ∧ x.state = st := by decide +kernel
theorem wit_ContextSteps_repart : let s := sBox (boxOf 8 1 0 (Config.hbmBytes - 128) 0) ctxP
    s.readImage s.box.arg0 = .ok s (some 0) ∧ s.imageOk 1 0 = true := ⟨imageIs (by decide +kernel), by decide +kernel⟩
/-- A grant of bank units 4 to 7 on die 0 that becomes 4 and 5, with nothing bound. -/
theorem wit_ContextSteps_moved : let s := sBox (boxOf 8 1 0 0 0) { ctxP with grant := [(4, 4)], repart := some (0, [(4, 2)]) }
    (s.ctx 1).repart = some (0, [(4, 2)]) ∧ s.boundOn 1 (fun c => (s.ctx 1).cores.getLsbD c && !(0 : BitVec 192).getLsbD c) = false ∧
    ((s.ctx 1).grant.zip [(4, 2)]).zipIdx = [(((4, 4), (4, 2)), 0)] ∧ grantLost (4, 4) (4, 2) = [6, 7] ∧
    s.boundOn 1 (fun c => dieOf c == 0) = false ∧ s.commandsOn 1 0 = false := by decide +kernel
/-- A region at each end of the clauses of MAILBOX_FREEZE and MAILBOX_THAW. -/
abbrev sReg (op : Nat) (r : Region) : State := sBox (boxOf op 1 255 0 0) { ctxP with regions := [(255, r)] }
theorem wit_FreezeSteps_mailbox : (∀ r, (sReg 4 r).region 1 255 = r) ∧ (∀ r, (sReg 5 r).region 1 255 = r) ∧
    (∀ r, BoxRuns (sReg 4 r) (sReg 4 r).box 0 4) ∧ (∀ r, BoxRuns (sReg 5 r) (sReg 5 r).box 0 5) ∧
    (∀ n ∈ [0, 1, 254, 255], ({ reg1 with fcount := n } : Region).idle) ∧ Region.reset.valid = false := by
  refine ⟨fun _ => rfl, fun _ => rfl, fun _ => ⟨rfl, rfl, rfl, rfl, ⟨Nat.le_refl 1, Nat.le_of_ble_eq_true rfl⟩, rfl, rfl⟩,
    fun _ => ⟨rfl, rfl, rfl, rfl, ⟨Nat.le_refl 1, Nat.le_of_ble_eq_true rfl⟩, rfl, rfl⟩, ?_, rfl⟩
  intro n _
  exact ⟨rfl, rfl, rfl⟩
theorem wit_FreezeSteps_ends : ((sReg 4 { reg1 with draining := true, owes := [.mailbox] }).region 1 255).draining = true ∧
    ((sReg 4 { reg1 with draining := true, owes := [.mailbox] }).region 1 255).held = [] ∧
    (sReg 4 { reg1 with draining := true, owes := [.mailbox] }).rangeDrains 1 { reg1 with draining := true, owes := [.mailbox] } = true ∧
    ((sReg 5 { reg1 with thawing := true, owes := [.mailbox] }).region 1 255).peersLeft = [] ∧
    ((sReg 5 { reg1 with thawing := true, peersLeft := [15] }).region 1 255).peersLeft = 15 :: [] ∧
    reg1.since + (sReg 5 reg1).sched.thawlimit * 1000000 ≤ { sReg 5 reg1 with ns := 10000000 }.ns ∧ (sReg 5 reg1).ownerSession 1 = some 0 := by decide +kernel
/-- A drain whose arrival goes to a team's barrier. -/
theorem wit_FreezeSteps_team : let s := { idle m1 with ctxs := [(1, { ctxP with regions := [(255, { reg1 with draining := true, owes := [.team 0 0 15 0 0] })] })] }
    (s.region 1 255).owes = [.team 0 0 15 0 0] ∧ s.team 0 0 = some m1 ∧ (m1.ids.task, m1.ids.cluster) = (0, 0) ∧ m1.bars[15]? = some (Barrier.fresh 1 0) ∧ (Barrier.fresh 1 0).own :=
  ⟨rfl, rfl, rfl, rfl, rfl, rfl⟩
/-- Entries and windows at their last numbers, with the least and the greatest ring. -/
theorem wit_HostSteps_entries : let s := sK0 cmdEnd
    (Table.get LaunchQ.reset s.sched.queues 15).en = false ∧ s.mayName 0 1 = true ∧ s.mayName 1 1 = false ∧ s.owns 0 1 = true ∧ s.live 1 = true ∧
    (Table.get LaunchQ.reset s.sched.queues 15).ctx = 0 ∧ ((s.core 191).hod.entry 7).en = false ∧
    ((BitVec.ofNat 256 (1 + 6 * 4 + 2 ^ 8)).extractLsb' 2 6).toNat = 6 ∧ ((BitVec.ofNat 128 (1 + 16 * 4 + 2 ^ 8)).extractLsb' 2 6).toNat = 16 ∧
    ((BitVec.ofNat 128 (1 + 16 * 4 + 2 ^ 8)).extractLsb' 8 8).toNat = 1 ∧ (BitVec.ofNat 256 (1 + 6 * 4 + 2 ^ 8)).getLsbD 0 = true ∧
    s.hours.status.testBit 0 = true := by decide +kernel
/-- A window onto the last 1 GiB that the page maps. -/
abbrev sWin : State := { sK0 cmdEnd with host := { (sK0 cmdEnd).host with windows := [(63, { en := true, ctx := 1, base := 0 })] } }
theorem wit_HostSteps_link : (sWin.host.sessions.find 0).isSome = true ∧ sWin.hours.power ≠ .p1 ∧ sWin.hours.power ≠ .p3 ∧ sWin.host.waiting = [] ∧
    0x1FFFFF8 < 0x2000000 ∧ 0x1FFFFF8 % 8 = 0 ∧ (Table.get Window.reset sWin.host.windows 63).en = true ∧ sWin.live 1 = true ∧ 2 ^ 30 - 8 < 2 ^ 30 ∧
    (2 ^ 30 - 8) % 8 = 0 ∧ (bytesLE 10000 8).length = 8 := by decide +kernel
/-- Accesses of a window that give a value, that are refused past the pages, and that wait for a home out of service. -/
abbrev kindOf : HostGot → Nat
  | .ok .. => 0
  | .refused .. => 1
  | .wait .. => 2
abbrev accesses (s : State) (va : Nat) : List Nat :=
  [kindOf (hostRead s 1 va 8), kindOf (hostWrite s 1 va 5 8 0), kindOf (hostAtomic s 1 va 8 0 { op := 8, type := 0, operand := 1, comparand := 0 })]
theorem wit_HostSteps_window : accesses sWin (2 ^ 30 - 8) = [0, 0, 0] ∧ accesses sWin (2 ^ 30) = [1, 1, 1] ∧
    accesses { sWin with dies := [(0, { Die.reset with state := .testing }), (1, { Die.reset with state := .testing }),
      (2, { Die.reset with state := .testing }), (3, { Die.reset with state := .testing })] } (2 ^ 30 - 8) = [2, 2, 2] := by decide +kernel
/-- A request behind one of its channel that waits. -/
theorem wit_HostSteps_queued : let s := { sWin with host := { sWin.host with waiting := [{ session := 0, ch := 63, kind := .fence }] } }
    (s.host.sessions.find 0).isSome = true ∧ s.hours.power ≠ .p1 ∧ ∃ q ∈ s.host.waiting, q.session = 0 ∧ q.ch = 63 :=
  ⟨rfl, by decide, ⟨{ session := 0, ch := 63, kind := .fence }, by simp, rfl, rfl⟩⟩

abbrev farK : Memory := [(0x1000, 1), (0x1001, 0x20), (0x2000, 0x1F), (0x2006, 0x20)]
/-- A keystone mailbox of context 1, whose page lies in a peer's memory; `h` is what the accesses leave. -/
abbrev sKey (b : Mailbox) (h : HostSide) : State :=
  { sBox Mailbox.reset ctxP with
    far := farK, host := h, keystone := { Keystone.reset with box := b, shared := [(7, 1, 0)] } }
abbrev hostK : HostSide := (sK0 cmdEnd).host
theorem wit_KeystoneSteps_runs : ∀ op ∈ [1, 2, 3, 4, 5],
    BoxRuns (sKey (boxOf op 1 0 0x10000 0x20000) hostK) (sKey (boxOf op 1 0 0x10000 0x20000) hostK).keystone.box 0 op := by
  intro op hop
  refine boxRuns ?_
  revert op
  decide +kernel
/-- The owner holds KEYID 1: the next is 2; DROPKEY of 1, which a region names or not, and of one that it does not hold. -/
theorem wit_KeystoneSteps_keys : let s := sKey (boxOf 1 1 0 0 0) hostK
    s.ownerOf 0 = 7 ∧ s.keystone.keysOf 7 = [1] ∧ s.keySlotsLeft = true ∧ 2 ∉ s.keystone.keysOf 7 ∧ s.keyUsed 7 1 = false ∧
    { s with ctxs := [(1, { ctxP with regions := [(0, { reg1 with keyid := 1 })] })] }.keyUsed 7 1 = true ∧
    (∀ m, 1 ≤ m → m < 2 → m ∈ s.keystone.keysOf 7) := by
  refine ⟨rfl, by decide, by decide, by decide, by decide, by decide, ?_⟩
  intro m h1 h2
  obtain rfl : m = 1 := by omega
  decide
/-- An owner with 255 keys, a full package, and an owner with none, whose first key needs no context. -/
theorem wit_KeystoneSteps_slots :
    255 ≤ ({ Keystone.reset with shared := (List.range 255).map (fun n => (7, n + 1, n)) }.keysOf 7).length ∧
    { sKey (boxOf 1 1 0 0 0) hostK with keystone := { Keystone.reset with shared := List.replicate 1023 (8, 1, 0) } }.keySlotsLeft = false ∧
    ({ Keystone.reset with shared := [(8, 1, 0)] }).keysOf 7 = [] ∧
    { sKey (boxOf 1 0 0 0 0) hostK with keystone := { Keystone.reset with shared := [(8, 1, 0)] } }.keySlotsLeft = true := by decide +kernel
theorem walkFrom_table {rd : Nat → Pte} {ctx va n table p : Nat} (hp : rd (table + 8 * (va / 2 ^ levelShift (n + 1) % levelCount (n + 1))) = .entry p)
    (h1 : bitsOf p 5 3 = 0) (h2 : bitsOf p 56 8 = 0) (h3 : bitsOf p 52 2 = 0) (h4 : p.testBit 0 = true) (h5 : p.testBit 1 = false)
    (h6 : bitsOf p 8 44 * 256 % 4096 = 0) : walkFrom rd ctx va (n + 1) table = walkFrom rd ctx va n (bitsOf p 8 44 * 256) := by
  have h7 : bitsOf p 8 44 * 256 % 256 = 0 := by omega
  conv => lhs; unfold walkFrom
  simp only [hp, h1, h2, h3, h4, h5]
  have h8 : (bitsOf p 8 44 * 256 % if n = 0 then 256 else 4096) = 0 := by split <;> assumption
  simp [h8]
theorem walkFrom_leaf {rd : Nat → Pte} {ctx va table p : Nat} (hp : rd (table + 8 * (va / 2 ^ levelShift 2 % levelCount 2)) = .entry p)
    (h1 : bitsOf p 5 3 = 0) (h2 : bitsOf p 56 8 = 0) (h3 : bitsOf p 52 2 = 2) (h4 : p.testBit 0 = true) (h5 : p.testBit 1 = true)
    (h6 : bitsOf p 8 44 = 0) (h7 : p.testBit 54 = false) (h8 : pageBase 2 va = 0) : walkFrom rd ctx va 2 table =
      .page { ctx := ctx, base := 0, size := 2 ^ 30, key := 2 * 2 ^ 52, r := p.testBit 2, w := p.testBit 3, comb := p.testBit 4 } := by
  conv => lhs; unfold walkFrom
  simp only [hp, h1, h2, h3, h4, h5, h6, h7, h8]
  simp [levelShift, passesCapacity]
theorem pteK (b : Mailbox) (h : HostSide) (a : Nat) : (sKey b h).pte 1 a = (sKey Mailbox.reset hostK).pte 1 a := rfl
theorem walkK (b : Mailbox) (h : HostSide) {va : Nat} (hv : va < 2 ^ 30) :
    (sKey b h).walk 1 va = .page { ctx := 1, base := 0, size := 2 ^ 30, key := 2 * 2 ^ 52, r := true, w := true, comb := true } := by
  have i3 : va / 2 ^ levelShift 3 % levelCount 3 = 0 := by rw [show levelShift 3 = 39 from rfl, show levelCount 3 = 512 from rfl]; omega
  have i2 : va / 2 ^ levelShift 2 % levelCount 2 = 0 := by rw [show levelShift 2 = 30 from rfl, show levelCount 2 = 512 from rfl]; omega
  have b2 : pageBase 2 va = 0 := by rw [pageBase, show levelShift 2 = 30 from rfl]; omega
  have p3 : (sKey b h).pte 1 (0x1000 + 8 * (va / 2 ^ levelShift (2 + 1) % levelCount (2 + 1))) = .entry 0x2001 := by rw [i3, pteK]; decide +kernel
  have p2 : (sKey b h).pte 1 (0x2000 + 8 * (va / 2 ^ levelShift 2 % levelCount 2)) = .entry 0x2000000000001F := by rw [i2, pteK]; decide +kernel
  have w3 := walkFrom_table (ctx := 1) p3 (by decide +kernel) (by decide +kernel) (by decide +kernel) (by decide +kernel) (by decide +kernel)
    (by decide +kernel)
  have w2 := walkFrom_leaf (ctx := 1) p2 (by decide +kernel) (by decide +kernel) (by decide +kernel) (by decide +kernel) (by decide +kernel)
    (by decide +kernel) (by decide +kernel) b2
  have w : walkFrom ((sKey b h).pte 1) 1 va 3 0x1000 = .page { ctx := 1, base := 0, size := 2 ^ 30, key := 2 * 2 ^ 52, r := true, w := true, comb := true } := by
    rw [w3, show bitsOf 0x2001 8 44 * 256 = 0x2000 from by decide +kernel, w2]
    decide +kernel
  have hl : (sKey b h).hours.lostPages = [] := rfl
  have hc : (sKey b h).changing 1 va = none := rfl
  have hr : ((sKey b h).ctx 1).ptroot = 0x1000 := rfl
  unfold State.walk
  rw [if_neg (by omega), hl, hc, hr, w]
  simp
theorem homeUpK (b : Mailbox) (h : HostSide) (key : Nat) : (sKey b h).homeUp key = true := rfl
theorem peerK {va : Nat} (hv : va < 2 ^ 30) : isPeerKey (2 * 2 ^ 52 + (va - 0)) = true := by
  have e : (2 * 2 ^ 52 + (va - 0)) / 2 ^ 52 = 2 := by omega
  exact beq_iff_eq.mpr e
theorem channelK (b : Mailbox) (h : HostSide) {key : Nat} (hk : isPeerKey key = true) : (sKey b h).channelGone key = false := by
  have e : key / 2 ^ 52 = 2 := beq_iff_eq.mp hk
  rw [State.channelGone, e]
  rfl
theorem placeK (b : Mailbox) (h : HostSide) {va key : Nat} {need : FarNeed} (hv : va < 2 ^ 30) (hk : 2 * 2 ^ 52 + (va - 0) = key) :
    hostPlace (sKey b h) 1 va need = .ok (sKey b h) key := by
  have hp : isPeerKey key = true := hk ▸ peerK hv
  unfold hostPlace
  rw [if_neg (by omega), walkK b h hv]
  dsimp only
  rw [hk, channelK b h hp, homeUpK]
  cases need <;> rfl
theorem ownerK (b : Mailbox) (h : HostSide) (l : Nat) : (sKey b h).owner l = none := by
  rw [State.owner, List.findSome?_eq_none_iff]
  intro d _
  rfl
/-- What the host's side holds after it asks a peer for a byte, and after it sends one. -/
abbrev asked (h : HostSide) (key : Nat) : HostSide := { h with netOut := h.netOut ++ [.remoteRead 1 (key / 2 ^ 48 % 16) (key % 2 ^ 48)] }
abbrev sent (h : HostSide) (key v : Nat) : HostSide :=
  { h with netOut := h.netOut ++ [.remoteWrite 1 (key / 2 ^ 48 % 16) (key % 2 ^ 48) ((cellsOf key v 1).map (fun e => (e.1 % 2 ^ 48, e.2)))] }
theorem askK (b : Mailbox) (h : HostSide) {key : Nat} (hk : isPeerKey key = true) : (sKey b h).askHome 1 key = sKey b (asked h key) := if_pos hk
theorem byteK (b : Mailbox) (h : HostSide) (va key : Nat) :
    (sKey b h).farByte 1 va key = .ok (sKey b h) ((sKey b h).homeByte ((sKey b h).cryptOf 1 va) key) := rfl
theorem homePut_none {s : State} {ctx va key v n : Nat} (h : s.owner (key / 256) = none) :
    s.homePut ctx va key v n = s.homeWrite ctx (s.cryptOf ctx va) (cellsOf key v n) := by unfold State.homePut; rw [h]
theorem spentLine_none {s : State} {key : Nat} (h : s.owner (key / 256) = none) : s.spentLine key = false := by unfold State.spentLine; rw [h]; rfl
theorem homeRead_none {s : State} {ctx va key : Nat} {v : Byte} (h : s.owner (key / 256) = none) (hv : s.farByte ctx va key = .ok s v) :
    s.homeRead ctx va key 1 = .ok s (v.toNat + 256 * 0) := by unfold State.homeRead; rw [h]; simp only [hv, Got.bind, State.homeRead]
theorem effK (b : Mailbox) (h : HostSide) (va : Nat) : ((sKey b h).ctx 1).effective va = .shared := rfl
theorem readAtK (b : Mailbox) (h : HostSide) {va key : Nat} (hk : isPeerKey key = true) (hp : hostPlace (sKey b h) 1 va .read = .ok (sKey b h) key) :
    ∃ v, hostRead (sKey b h) 1 va 1 = .ok (sKey b (asked h key)) v := by
  have e : hostRead (sKey b h) 1 va 1 = hostValue (sKey b (asked h key)) 1 va key 1 := by
    rw [hostRead, hp]
    exact congrArg (fun s => hostValue s 1 va key 1) (askK b h hk)
  rw [e, hostValue, homeRead_none (ownerK b _ _) (byteK b _ va key)]
  exact ⟨_, rfl⟩
theorem readK (b : Mailbox) (h : HostSide) {va : Nat} (hv : va < 2 ^ 30) : ∃ h' v, hostRead (sKey b h) 1 va 1 = .ok (sKey b h') v :=
  ⟨_, readAtK b h (peerK hv) (placeK b h hv rfl)⟩
theorem homeWrite_peer {s : State} {ctx ck k : Nat} {c : Byte} {r : List (Nat × Byte)} (hk : isPeerKey k = true) :
    s.homeWrite ctx ck ((k, c) :: r) = { s with host := { s.host with netOut := s.host.netOut ++ [.remoteWrite ctx (k / 2 ^ 48 % 16) (k % 2 ^ 48)
      (((k, c) :: r).map (fun e => (e.1 % 2 ^ 48, e.2)))] } } := by
  rw [State.homeWrite, hk]
  rfl
theorem cellsOf_one (key v : Nat) : cellsOf key v 1 = (key, BitVec.ofNat 8 v) :: [] := rfl
theorem putK (b : Mailbox) (h : HostSide) {va key v : Nat} (hk : isPeerKey key = true) : (sKey b h).homePut 1 va key v 1 = sKey b (sent h key v) := by
  rw [homePut_none (ownerK b h _), cellsOf_one, homeWrite_peer hk, sent, cellsOf_one]
theorem writeAtK (b : Mailbox) (h : HostSide) {va key v : Nat} (hk : isPeerKey key = true) (hp : hostPlace (sKey b h) 1 va .write = .ok (sKey b h) key) :
    hostWrite (sKey b h) 1 va v 1 0 = .ok (sKey b (sent h key v)) 0 := by
  have hq : (sKey b h).hostPut 1 va key v 1 = sKey b (sent h key v) := by rw [State.hostPut, putK b h hk, effK]
  rw [hostWrite, hp, HostGot.bind, effK]
  dsimp only
  rw [spentLine_none (ownerK b h _), hq]
  rfl
theorem writeK (b : Mailbox) (h : HostSide) {va v : Nat} (hv : va < 2 ^ 30) : ∃ h' x, hostWrite (sKey b h) 1 va v 1 0 = .ok (sKey b h') x :=
  ⟨_, _, writeAtK b h (peerK hv) (placeK b h hv rfl)⟩
theorem keyReadK (b : Mailbox) : ∀ (n : Nat) (h : HostSide) (va : Nat), va + n ≤ 2 ^ 30 →
    ∃ h' x, keyRead (sKey b h) 1 va n = .ok (sKey b h') x ∧ x.length = n
  | 0, h, _, _ => ⟨h, [], rfl, rfl⟩
  | n + 1, h, va, hv => by
    obtain ⟨h1, v, e1⟩ := readK b h (va := va) (by omega)
    obtain ⟨h2, x, e2, e3⟩ := keyReadK b n h1 (va + 1) (by omega)
    exact ⟨h2, BitVec.ofNat 8 v :: x, by simp only [keyRead, e1, e2], by simp [e3]⟩
theorem keyWriteK (b : Mailbox) : ∀ (l : List Byte) (h : HostSide) (va : Nat), va + l.length ≤ 2 ^ 30 →
    ∃ h' x, keyWrite (sKey b h) 1 va l = .ok (sKey b h') x
  | [], h, _, _ => ⟨h, [], rfl⟩
  | y :: l, h, va, hv => by
    simp only [List.length_cons] at hv
    obtain ⟨h1, v, e1⟩ := writeK b h (va := va) (v := y.toNat) (by omega)
    obtain ⟨h2, x, e2⟩ := keyWriteK b l h1 (va + 1) (by omega)
    exact ⟨h2, x, by simp only [keyWrite, e1, e2]⟩
theorem bytesLE_length : ∀ n v, (bytesLE v n).length = n
  | 0, _ => rfl
  | n + 1, v => by rw [bytesLE, List.length_cons, bytesLE_length n]
theorem entriesK (b : Mailbox) (h : HostSide) : ((sKey b h).attestEntries 7).length = 192 := by
  have hm : ((sKey b h).ctxs.filter (fun e => e.2.state != .free && e.2.owner == 7)).take 24 = [(1, ctxP)] := rfl
  simp only [State.attestEntries, hm, List.flatMap_cons, List.flatMap_nil, List.append_nil, List.length_append, List.length_cons, List.length_nil,
    List.length_replicate]
  have := List.length_take_le 6 (hashBytes (Config.digest ctxP.attested))
  omega
/-- GETCERT: the certificate's bytes can be written, whatever they are. -/
theorem wit_KeystoneSteps_getcert : ∃ s1 x, keyWrite (sKey (boxOf 4 1 0 0x10000 2048) hostK) 1 0x10000 (Config.certificate.take 2048) = .ok s1 x := by
  obtain ⟨h, x, e⟩ := keyWriteK (boxOf 4 1 0 0x10000 2048) (Config.certificate.take 2048) hostK 0x10000
    (by have := List.length_take_le 2048 Config.certificate; omega)
  exact ⟨_, x, e⟩
/-- STAGEFW: the image can be read, and is accepted or refused. -/
theorem wit_KeystoneSteps_stagefw : ∃ s1 image, keyRead (sKey (boxOf 5 1 0 0x10000 64) hostK) 1 0x10000 64 = .ok s1 image ∧
    ((Config.signatureOk image = true ∧ (sKey (boxOf 5 1 0 0x10000 64) hostK).keystone.secver ≤ Config.imageVersion image) ∨
      Config.signatureOk image = false ∨ Config.imageVersion image < (sKey (boxOf 5 1 0 0x10000 64) hostK).keystone.secver) := by
  obtain ⟨h, x, e, _⟩ := keyReadK (boxOf 5 1 0 0x10000 64) 64 hostK 0x10000 (by omega)
  refine ⟨_, x, e, ?_⟩
  cases Config.signatureOk x
  · exact .inr (.inl rfl)
  · exact (Nat.lt_or_ge (Config.imageVersion x) _).elim (fun h => .inr (.inr h)) (fun h => .inl ⟨rfl, h⟩)
/-- ATTEST: the nonce can be read and the report and its signature written, whatever they are. -/
theorem wit_KeystoneSteps_attest : let s := sKey (boxOf 3 1 0 0x10000 0x20000) hostK
    s.keystone.box.arg1 % 64 = 0 ∧ ∃ s1 nonce s2 x, keyRead s 1 0x10000 48 = .ok s1 nonce ∧
      keyWrite s1 1 0x20000 (s1.report (s.ownerOf 0) nonce ++ (Config.signatureOf (s1.report (s.ownerOf 0) nonce) ++ List.replicate 96 0).take 96) =
        .ok s2 x := by
  obtain ⟨h, nonce, e, en⟩ := keyReadK (boxOf 3 1 0 0x10000 0x20000) 48 hostK 0x10000 (by omega)
  have hl : ((sKey (boxOf 3 1 0 0x10000 0x20000) h).report 7 nonce).length ≤ 1000 := by
    have hb : ∀ (v n : Nat), (bytesLE v n).length = n := fun v n => bytesLE_length n v
    have hh : ∀ x, (hashBytes x).length = 48 := fun x => by unfold hashBytes; rw [List.length_map, List.length_range]
    have ht := entriesK (boxOf 3 1 0 0x10000 0x20000) h
    simp only [State.report, List.length_append, hb, hh, en]
    omega
  obtain ⟨h2, x, e2⟩ := keyWriteK (boxOf 3 1 0 0x10000 0x20000)
    ((sKey (boxOf 3 1 0 0x10000 0x20000) h).report 7 nonce ++
      (Config.signatureOf ((sKey (boxOf 3 1 0 0x10000 0x20000) h).report 7 nonce) ++ List.replicate 96 0).take 96) h 0x20000 (by
      rw [List.length_append]
      have := List.length_take_le 96 (Config.signatureOf ((sKey (boxOf 3 1 0 0x10000 0x20000) h).report 7 nonce) ++ List.replicate 96 0)
      omega)
  exact ⟨by decide, _, nonce, _, x, e, e2⟩

/-! ### Errors, power, the step -/

/-- A state of the hours alone. -/
abbrev sHours (h : Hours) : State := { sK0 cmdEnd with hours := h }
abbrev hoursE (kind idx n : Nat) : Hours := { State.reset.hours with errorTimes := [(errorKey kind idx, List.replicate n 0)] }
theorem wit_ErrorSteps_soft : (191 < 192 ∧ 131071 < 131072) ∧ PoisonAt.scratch 191 131071 ∉ (sHours State.reset.hours).hours.poison := by decide
theorem wit_ErrorSteps_scrub : PoisonAt.far 512 ∈ (sHours { State.reset.hours with poison := [.far 512] }).hours.poison ∧
    (sHours { State.reset.hours with poison := [.far 512] }).hours.contained = [] := by decide
/-- A contained error of a committed task with a running team, and of a task without GO. -/
abbrev sCont (st : TaskState) : State :=
  { sTask m1 { task0 with state := st } with hours := { State.reset.hours with contained := [.consumed 0 3 0 8 64, .consumed 1 3 0 8 64] } }
theorem wit_ErrorSteps_contained : ∀ b : Bool, let st := if b then TaskState.committed else .opened
    let x : Task := { task0 with state := st }
    (sCont st).hours.contained = .consumed 0 3 0 8 64 :: [.consumed 1 3 0 8 64] ∧ (sCont st).sched.tasks.find 0 = some x ∧ x.failed = false ∧
    x.gang.poisoned = false ∧ x.state = st ∧ (0, 0) ∈ x.teams ∧ (sCont st).team 0 0 = some m1 ∧ m1.state = .running := by decide +kernel
/-- A unit of each kind at its threshold, the last number of its kind. -/
theorem wit_ErrorSteps_fence : (sHours (hoursE 0 191 4)).mayFence 0 191 = true ∧ (sHours (hoursE 1 2047 4)).mayFence 1 2047 = true ∧
    (sHours (hoursE 2 127 4)).mayFence 2 127 = true ∧ (sHours (hoursE 3 383 4)).mayFence 3 383 = true ∧
    (sHours (hoursE 4 (256 * 63 + 255) 1001)).mayFence 4 (256 * 63 + 255) = true ∧ (sHours (hoursE 4 0 1000)).mayFence 4 0 = false := by
  decide +kernel
theorem wit_ErrorSteps_dies : (∀ b : Bool, ({ sK0 cmdEnd with sched := { Sched.reset with standby := b } }).sched.standby = b) ∧
    3 < 4 ∧ ((sK0 cmdEnd).die 3).state = .online ∧
    (({ sK0 cmdEnd with dies := [(3, { Die.reset with state := .fencing })] }).die 3).state = .fencing ∧
    (({ sK0 cmdEnd with dies := [(3, { Die.reset with state := .testing })] }).die 3).state = .testing ∧
    (({ sK0 cmdEnd with dies := [(3, { Die.reset with state := .retired })] }).die 3).state = .retired := ⟨fun _ => rfl, by decide, rfl, rfl, rfl, rfl⟩
/-- A session with no team bound, with one, with no live context and with one. -/
theorem wit_PowerSteps_requests : let s := sHours State.reset.hours
    (s.host.sessions.find 0).isSome = true ∧ ({ s with cores := [] }.teamBound = false) ∧ (idle m1).teamBound = true ∧ s.hours.power ≠ .p3 ∧
    (∀ e ∈ ({ s with ctxs := [(1, { ctx1 with state := .free })] } : State).ctxs, e.2.state ≠ .live) ∧ (∃ e ∈ s.ctxs, e.2.state = .live) ∧
    (1000 ≤ 2800 ∧ 999 < 1000 ∧ 2800 < 2801) := by
  refine ⟨rfl, rfl, rfl, by decide, ?_, ⟨(1, ctxP), by decide, rfl⟩, by decide⟩
  intro e he
  obtain rfl : e = (1, { ctx1 with state := .free }) := by simpa using he
  decide
theorem wit_PowerSteps_p1 : let s := sK0 cmdEnd
    ({ s with cores := [] }.commandInFlight = false) ∧ ({ s with cores := [] }.teamBound = false) ∧ s.hours.power = .p0 ∧
    ({ s with hours := { s.hours with power := .p1 } }).hours.power = .p1 := ⟨rfl, rfl, rfl, rfl⟩
theorem wit_PowerSteps_hot : 3 < 4 ∧ 1150 ≤ (({ sK0 cmdEnd with dies := [(3, { Die.reset with temp := 1150 })] }).die 3).temp := by decide

theorem test_reset_canonical : State.reset.memoriesOk = true := by decide
/-- A state of one lane at a code address, with words placed from an offset of the code page on. -/
abbrev sWord (pc : Word) (fresh : Bool) (at0 : Nat) (v : Nat) : State :=
  { stOf (teamOf (grpOf [{ thr 0 [] with pc := pc, unchecked := fresh }])) t0 with far := Memory.writeLE [] at0 v 16 }
/-- The word k of a state's code from its lane's PC on. -/
abbrev mCode : Team := teamOf (g0 [])
abbrev wordOf (s : State) (pc k : Nat) : IWord := (codeWord s mCode (pc + 4 * k)).getD 0
/-- A PC past the code region's end, and a fresh lane at an address that starts no run. -/
theorem wit_StepRunsDecoded_bounds : inCode mCode.env 0x20000 = false ∧ inCode mCode.env 0xFFFC = false ∧
    ((sWord 0x10006 true 0 0).threadAt 0 0 0 0).isSome = true ∧
    inCode mCode.env 0x10006 = true ∧ targetTrap (sWord 0x10006 true 0 0) mCode 0x10006 = some 2 ∧
    targetPoison (sWord 0x10006 true 0 0) mCode 0x10006 = none := by decide +kernel
/-- A lane that awaits a result of its own, one that does not, and a poisoned word before a target and at the PC. -/
theorem wit_StepRunsDecoded_waits : turnHolds t0 (grpOf [{ thr 0 [] with pend := [{ pendY with hold := true }] }]) = true ∧ turnHolds t0 (g0 []) = false ∧
    (let s := { sWord 0x1000C true 0 0 with hours := { State.reset.hours with poison := [.far 1] } }
     targetPoison s mCode 0x1000C = some 1 ∧ codePoison s mCode.env 0x10008 = some 1 ∧ codePoison s mCode.env 0x10000 = none) := by decide +kernel
/-- IADD and a trailer, as the second word of a run; an illegal word; a pair whose second word lies past the end; and the last word of the region. -/
theorem wit_StepRunsDecoded_words : (∀ b : Bool, let pc := if b then 0x10008 else 0x1FFFC
    let s := sWord (BitVec.ofNat 64 pc) false (pc - 0x10000) (0x186040C1 + 0x0FFFFFC0 * 2 ^ 32)
    inCode mCode.env pc = true ∧
    (∀ k, k < 4 → if inCode mCode.env (pc + 4 * k) then (codeWord s mCode (pc + 4 * k)).isSome = true
      else wordOf s pc k = 0) ∧
    inCode mCode.env (pc + 4 * wordsNeeded (wordOf s pc 0) (wordOf s pc 1) - 1) = true ∧
    decodeFetch (wordOf s pc 0) (wordOf s pc 1) (wordOf s pc 2) = .ok ⟨none, .iadd 6 2 3 1, 1⟩) ∧
    (let s := sWord 0x10008 false 8 0
     decodeFetch (wordOf s 0x10008 0) (wordOf s 0x10008 1) (wordOf s 0x10008 2) = .error 0) ∧
    (let s := sWord 0x1FFFC false 0xFFFC 0x79000108
     inCode mCode.env (0x1FFFC + 4 * wordsNeeded (wordOf s 0x1FFFC 0) 0 - 1) = false) := by decide +kernel
/-- The cores act with nothing coming, and between two steps of another agent. -/
abbrev comes (c : Coming) (rest : List Coming) (s : State) : State := { s with coming := c :: rest }
abbrev p1Comes : Coming := { ev := some .p1Entry, ns := 10, cycles := 1 }
abbrev coresCome : Coming := { ev := none, ns := 3, cycles := 12 }
theorem wit_StepRunsDecoded_slots : (∃ s1, CoresAct (idle m1) s1) ∧ (∃ s1, CoresAct (comes coresCome [p1Comes] (idle m1)) s1) ∧ (idle m1).turn = none ∧
    (comes p1Comes [coresCome] (idle m1)).coming = p1Comes :: [coresCome] ∧ p1Comes.ev = some .p1Entry ∧ Instr.p1Entry.isEvent = true :=
  ⟨⟨_, .inl ⟨rfl, rfl⟩⟩, ⟨_, .inr ⟨_, _, rfl, rfl, rfl⟩⟩, rfl, rfl, rfl, rfl⟩
/-- The operand fields of every format at their greatest values, and a prefix. -/
theorem wit_EveryInstructionAnswers : Instr.p1Entry.isEvent = true ∧ (Instr.iadd 127 127 127 3).isEvent = false ∧ (stOf m1 t0).turn = some t0 ∧ (stOf m1 t0).team 0 0 = some m1 ∧
    m1.groups[0]? = some g1 := ⟨rfl, rfl, rfl, rfl, rfl⟩
theorem wit_EncodeThenDecode : [Instr.iadd 127 127 127 3, .trl 127 127 127 1, .icmp 15 15 127 127 3, .lui 127 0xFFFFF, .exit].all (·.wf) = true ∧
    (Pfx.arith 15 1 7 1 1 1).fieldsOk = false ∧ (Pfx.arith 15 1 6 1 1 1).fieldsOk = true ∧
    (Pfx.arith 15 1 6 1 1 1).fits (fld ((encode (.iadd 127 127 127 3)).getD 0 0) 27 5).toNat = true := by decide +kernel
theorem wit_DecodeThenEncode : decodeWords 0x79000108 0xE8000554 = .ok (.mma 16 0 4 2 0 0 0 0 1 5 5) ∧ decodeWords 0x186040C1 7 = .ok (.iadd 6 2 3 1) := by
  decide +kernel
/-- Whether an outcome is a next state. -/
def goesOn (o : Host.Outcome State Fault Refusal) : Bool := match o with | .next _ => true | _ => false
theorem next_of (o : Host.Outcome State Fault Refusal) (h : goesOn o = true) : ∃ s', o = .next s' := by
  cases o with
  | next s => exact ⟨s, rfl⟩
  | _ => cases h
theorem wit_DeviceMemoryCanonical : State.reset.far.wf = true ∧ ∃ s', step State.reset = .next s' := ⟨rfl, next_of (step State.reset) (by decide +kernel)⟩
theorem wit_ThreadsCannotWrite : (Instr.st 2 2 0 0 0 0).wf = true ∧ ∃ s', exec (.st 2 2 0 0 0 0) s1 = .next s' := ⟨by decide, next_of (exec (.st 2 2 0 0 0 0) s1) (by decide +kernel)⟩

end Sys2Proof.Tests
end

section

/-! ### The package right after reset

Tables are sparse: at reset every one is empty, so each part of the package reads as its own reset value, and each register of the
control space as the number that this value stands for. -/

namespace Sys2Proof.Machine

/-! #### Parts of the package -/

@[simp] theorem Table.get_nil {α : Type} (d : α) (q : Nat) : Table.get d [] q = d := rfl

@[simp] theorem State.reset_core (c : Nat) : State.reset.core c = Core.reset := Table.get_nil _ c
@[simp] theorem State.reset_die (d : Nat) : State.reset.die d = Die.reset := Table.get_nil _ d
@[simp] theorem State.reset_ctx (c : Nat) : State.reset.ctx c = Ctx.reset := Table.get_nil _ c
@[simp] theorem State.reset_region (c i : Nat) : State.reset.region c i = Region.reset := by
  rw [State.region, State.reset_ctx]
  exact Table.get_nil _ i
@[simp] theorem Hod.reset_entry (q : Nat) : Hod.reset.entry q = QEntry.reset := Table.get_nil _ q
@[simp] theorem State.reset_far_read (a : Nat) : State.reset.far.read a = 0 := Table.get_nil _ a

/-! #### What a reset value reads as -/

@[simp] theorem Ctx.reset_value : Ctx.reset.value = 0 := by
  simp [Ctx.value, Ctx.reset, -Nat.reducePow]
@[simp] theorem Region.reset_value : Region.reset.value = 0 := by decide
@[simp] theorem QEntry.reset_value : QEntry.reset.value = 0 := by decide
@[simp] theorem LaunchQ.reset_value : LaunchQ.reset.value = 0 := by decide
@[simp] theorem Window.reset_value : Window.reset.value = 0 := by decide
/-- RETRY, from bit 64 on, is the one field of a send queue whose reset value is not 0: 1,000 microseconds (R355). -/
@[simp] theorem SendQ.reset_value : SendQ.reset.value = 1000 * 2 ^ 64 := by decide
@[simp] theorem RecvQ.reset_value : RecvQ.reset.value = 0 := by decide
@[simp] theorem PeerEntry.reset_value : PeerEntry.reset.value = 0 := by decide
@[simp] theorem Mailbox.reset_value : Mailbox.reset.value = 0 := by
  simp [Mailbox.value, Mailbox.reset, -Nat.reducePow]

/-! #### The clauses of the reset, by part -/

/-- A context is free, holds no key and has no region entry (R328, R338, R410). -/
theorem State.reset_ctx_free (c : Nat) : (State.reset.ctx c).state = .free ∧ (State.reset.ctx c).value = 0 ∧
    (State.reset.ctx c).key = none ∧ ∀ i, (State.reset.region c i).value = 0 := by
  simp only [State.reset_ctx, State.reset_region]
  exact ⟨rfl, Ctx.reset_value, rfl, fun _ => Region.reset_value⟩

/-- The entry of a hod's queue table: queue 0 is the hardware FIFO and always enabled, a ring reads 0 (R217). -/
theorem State.reset_hodQ (c q : Nat) : State.reset.regValue 0 (.hodQ c q) = if q = 0 then 1 else 0 := by
  have entry : Core.reset.hod.entry q = QEntry.reset := Hod.reset_entry q
  rw [State.regValue, State.reset_core, entry, QEntry.reset_value]

/-- A core counts from cycle 0 and has no team, no bind record, no packet and no command (R22, R217, R410). -/
theorem State.reset_core_idle (c : Nat) : State.reset.coreCycles c = 0 ∧
    (∀ r, State.reset.team c r = none ∧ State.reset.bindRec c r = 0) ∧ (State.reset.core c).hod.q0 = [] ∧
    (∀ k, State.reset.cmd c k = none) ∧ State.reset.regValue 0 (.hodQ c 0) = 1 ∧
    ∀ q, 1 ≤ q → State.reset.regValue 0 (.hodQ c q) = 0 := by
  simp only [State.coreCycles, State.team, State.bindRec, State.cmd, State.reset_core, State.reset_hodQ]
  exact ⟨rfl, fun _ => ⟨rfl, rfl⟩, rfl, fun _ => rfl, rfl, fun q hq => if_neg (by omega)⟩

/-- A die is Online without fences at 4.0 GHz and holds no L2 line, no tile-store window and no lock (R3, R397). -/
theorem State.reset_die_online (d : Nat) : (State.reset.die d).state = .online ∧ (State.reset.die d).fences = 0 ∧
    (State.reset.die d).clock = 4000 ∧ (∀ k, (State.reset.die d).l2.find k = none) ∧
    (∀ k, (State.reset.die d).windows.find k = none) ∧ ∀ k, (State.reset.die d).locks.find k = none := by
  simp only [State.reset_die]
  exact ⟨rfl, rfl, rfl, fun _ => rfl, fun _ => rfl, fun _ => rfl⟩

/-- The entries that the host writes, by queue or window number (R299, R351, R355, R356). -/
theorem State.reset_hostEntries (q : Nat) : State.reset.regValue 0 (.launchQ q) = 0 ∧ State.reset.regValue 0 (.window q) = 0 ∧
    State.reset.regValue 0 (.sendQ q) = 1000 * 2 ^ 64 ∧ State.reset.regValue 0 (.recvQ q) = 0 :=
  ⟨LaunchQ.reset_value, Window.reset_value, SendQ.reset_value, RecvQ.reset_value⟩

/-- Settles O28, part by part: at reset every table is empty, so that each part reads as its reset value. -/
theorem reset : Obligations.Reset := by
  unfold Obligations.Reset
  have param : (List.range 8).map State.reset.sched.param = [0x00010000, 1000, 100, 1, 0, 10, 1000, 0] := by decide
  exact ⟨rfl, rfl, State.reset_ctx_free, State.reset_core_idle, State.reset_die_online, param, State.reset_hostEntries,
    fun _ _ => PeerEntry.reset_value, Mailbox.reset_value, Mailbox.reset_value, rfl, rfl, rfl, rfl, rfl, rfl, rfl,
    State.reset_far_read⟩

end Sys2Proof.Machine
end

section

/-! ### The number formats within an instruction

What an instruction that rounds its elements one by one leaves in its destination, its flags and its generator (R43, R50, R97, R101):
the elements of a run, and then CVT, SEED and RND. -/

namespace Sys2Proof.Machine

/-! #### The generator along a run of elements -/

/-- One step before n more; by the unfolded recursion, which keeps the generator's constants folded. -/
theorem seedAfter_step (n : Nat) (s : Word) : seedAfter (n + 1) s = seedAfter n (seedStep s) := by
  delta seedAfter
  rfl

theorem seedAfter_succ (n : Nat) (s : Word) : seedAfter (n + 1) s = seedStep (seedAfter n s) := by
  induction n generalizing s with
  | zero => exact seedAfter_step 0 s
  | succ n ih => rw [seedAfter_step, ih, ← seedAfter_step]

/-- The generator steps once for each element formed, or not at all (R43). -/
theorem formEls_seed (steps : Bool) (f : Nat → Nat → Nat × FFlags) (l : List Nat) (seed : Word) :
    (formEls steps f l seed).seed = if steps then seedAfter l.length seed else seed := by
  induction l generalizing seed with
  | nil => cases steps <;> rfl
  | cons k r ih =>
    cases steps
    · simp only [formEls, Bool.false_eq_true, if_false, ih]
    · simp only [formEls, if_true, ih, List.length_cons, seedAfter_step]

theorem formEls_append_els (steps : Bool) (f : Nat → Nat → Nat × FFlags) (l r : List Nat) (seed : Word) :
    (formEls steps f (l ++ r) seed).els = (formEls steps f l seed).els ++ (formEls steps f r (formEls steps f l seed).seed).els := by
  induction l generalizing seed with
  | nil => rfl
  | cons k l ih => simp only [List.cons_append, formEls, ih]

/-- The next random word of a run, after r elements. -/
theorem formEls_next (steps : Bool) (r : Nat) (seed : Word) :
    seedRnd (if steps then seedStep (if steps then seedAfter r seed else seed) else if steps then seedAfter r seed else seed) =
      randomAt steps seed r := by
  cases steps
  · rfl
  · exact congrArg seedRnd (seedAfter_succ r seed).symm

/-- The elements of a run over those k < n that p picks: each takes the random word of its rank among them (R43). -/
theorem formEls_filter_els (steps : Bool) (f : Nat → Nat → Nat × FFlags) (p : Nat → Bool) (n : Nat) (seed : Word) :
    (formEls steps f ((List.range n).filter p) seed).els =
      ((List.range n).filter p).map (fun k => (k, f (randomAt steps seed ((List.range k).filter p).length) k)) := by
  induction n with
  | zero => rfl
  | succ n ih =>
    rw [List.range_succ, List.filter_append, formEls_append_els, ih, List.map_append, formEls_seed]
    by_cases hp : p n
    · simp only [List.filter_cons, hp, if_true, List.filter_nil, formEls, formEls_next, List.map_cons, List.map_nil]
    · simp [hp, formEls]

theorem formEls_active_els (steps : Bool) (f : Nat → Nat → Nat × FFlags) (S : Nat) (guard : Byte) (seed : Word) :
    (formEls steps f (activeEls S guard) seed).els =
      (activeEls S guard).map (fun k => (k, f (randomAt steps seed (rankOf S guard k)) k)) :=
  formEls_filter_els steps f (onEl guard S) S seed

theorem formEls_active_seed (steps : Bool) (f : Nat → Nat → Nat × FFlags) (S : Nat) (guard : Byte) (seed : Word) :
    (formEls steps f (activeEls S guard) seed).seed = if steps then seedAfter (rankOf S guard S) seed else seed :=
  formEls_seed steps f (activeEls S guard) seed

/-- The flags of a run are the OR of its elements' flags (R50). -/
theorem formEls_active_flags (steps : Bool) (f : Nat → Nat → Nat × FFlags) (S : Nat) (guard : Byte) (seed : Word) :
    (formEls steps f (activeEls S guard) seed).flags =
      (activeEls S guard).foldl (fun fl k => fl ||| (f (randomAt steps seed (rankOf S guard k)) k).2) 0 := by
  rw [ElemRun.flags, formEls_active_els, List.foldl_map]

/-! #### The elements written into a register -/

theorem mem_activeEls {S : Nat} {guard : Byte} {k : Nat} : k ∈ activeEls S guard ↔ k < S ∧ onEl guard S k = true := by
  simp [activeEls]

theorem activeEls_nodup (S : Nat) (guard : Byte) : (activeEls S guard).Nodup := List.nodup_range.filter _

/-- Among the places base + k of the active elements, place j is that of element j - base. -/
theorem find_activeEls {α : Type} (S base : Nat) (guard : Byte) (v : Nat → α) (j : Nat) :
    ((activeEls S guard).map (fun k => (base + k, v k))).find? (·.1 = j) =
      if base ≤ j ∧ j < base + S ∧ onEl guard S (j - base) then some (j, v (j - base)) else none := by
  split
  · next h =>
    obtain ⟨hb, hS, ho⟩ := h
    cases hf : ((activeEls S guard).map (fun k => (base + k, v k))).find? (·.1 = j) with
    | none =>
      rw [List.find?_eq_none] at hf
      have hm : j - base ∈ activeEls S guard := mem_activeEls.2 ⟨by omega, ho⟩
      exact absurd (hf _ (List.mem_map.2 ⟨_, hm, rfl⟩)) (by simp; omega)
    | some e =>
      have hj : e.1 = j := by simpa using List.find?_some hf
      obtain ⟨k, _, rfl⟩ := List.mem_map.1 (List.mem_of_find?_eq_some hf)
      have hk : k = j - base := by simp only at hj; omega
      rw [hk] at hj ⊢
      rw [← hj]
      simp
  · next h =>
    rw [List.find?_eq_none]
    intro e he hj
    obtain ⟨k, hk, rfl⟩ := List.mem_map.1 he
    have hj : base + k = j := by simpa using hj
    obtain ⟨hS, ho⟩ := mem_activeEls.1 hk
    exact h ⟨by omega, by omega, by rw [← hj, Nat.add_sub_cancel_left]; exact ho⟩

/-- A register that a run is written into from element `base` on: the active elements are those formed, the others stay (R14, R101). -/
theorem elem_formEls_into (steps : Bool) (f : Nat → Nat → Nat × FFlags) (S n base : Nat) (guard : Byte) (seed x : Word) (j : Nat)
    (h : n * j + n ≤ 64) :
    elem n ((formEls steps f (activeEls S guard) seed).into n base x) j =
      if base ≤ j ∧ j < base + S ∧ onEl guard S (j - base) then
        BitVec.ofNat n (f (randomAt steps seed (rankOf S guard (j - base))) (j - base)).1
      else elem n x j := by
  have hinto : (formEls steps f (activeEls S guard) seed).into n base x =
      ((activeEls S guard).map (fun k => (base + k, (f (randomAt steps seed (rankOf S guard k)) k).1))).foldl (fun x e => setEl n x e.1 e.2) x := by
    rw [ElemRun.into, formEls_active_els, List.foldl_map, List.foldl_map]
  have hnd : (((activeEls S guard).map (fun k => (base + k, (f (randomAt steps seed (rankOf S guard k)) k).1))).map (·.1)).Nodup := by
    rw [List.map_map]
    exact (activeEls_nodup S guard).map (fun a b hab => Nat.add_left_cancel hab)
  rw [hinto, elem_setEls n _ x j h hnd, find_activeEls]
  by_cases hj : base ≤ j ∧ j < base + S ∧ onEl guard S (j - base)
  · rw [if_pos hj, if_pos hj]
  · rw [if_neg hj, if_neg hj]

/-- An instruction whose lane writes a run of rounded elements from element `base` of D on leaves what `Rounded` says (R43, R50). -/
theorem rounded_finish {c : LaneCtx} (h : c.th.pend = []) (i : Instr) (s : State) (t : Turn) (S n base : Nat) (d : BitVec 7) (steps : Bool)
    (f : Nat → Nat → Nat × FFlags) (o : LaneOut)
    (hregs : o.regs = [(c.th.ix d.toNat, (formEls steps f (activeEls S c.m.guard) c.th.seed).into n base (c.th.rd d))])
    (hflags : o.flags = (formEls steps f (activeEls S c.m.guard) c.th.seed).flags)
    (hseed : o.seed = if steps then some (formEls steps f (activeEls S c.m.guard) c.th.seed).seed else none) :
    Rounded s t S n base d steps f c (c.th.finish i t s.tick none o) where
  els j hj := by
    rw [Thread.reg_finish c.th i t s.tick o hregs]
    exact elem_formEls_into steps f S n base c.m.guard c.th.seed (c.th.rd d) j hj
  flags := by
    have hr := Thread.raises_finish h i t s o
    rwa [hflags, formEls_active_flags] at hr
  seed := by
    rw [Thread.seed_finish h, hseed, formEls_active_seed]
    cases steps <;> rfl

/-! #### CVT (R101, R102) -/

theorem cvtSource_eq (p : BitVec 3) (sc dc : BitVec 4) (x : Word) (k : Nat) : cvtSource p sc dc x k =
    el (typeWidth sc) x (if typeWidth dc ≤ typeWidth sc then k else p.toNat * cvtCount sc dc + k) := by
  unfold cvtSource
  split <;> rfl

/-- CVT converts its elements where P says, and steps the generator where it rounds in SR mode (R43, R101, R102). -/
theorem cvt_converts : Claims.Conversions := by
  intro d a p sc dc s t m g i N _ hr hn
  obtain ⟨s', he, hd⟩ := simd_done hr true (.inr hn) _
  refine executes_of_done hr he hd _ _ _ (fun c r h => by simpa using h) (fun c r h => by simp at h) (fun c hc hq => ?_)
  have hf : (fun rnd k => cvtElem (c.m.rounding rnd) sc.toNat dc.toNat (cvtSource p sc dc (c.th.rd a) k)) = fun rnd k =>
      cvtElem { rm := c.m.rm, sat := c.m.sat, ftz := c.m.ftz, rnd := rnd, srcUnit := none } sc.toNat dc.toNat
        (el (typeWidth sc) (c.th.rd a) (if typeWidth dc ≤ typeWidth sc then k else p.toNat * N + k)) := by
    funext rnd k
    rw [cvtSource_eq]
    rfl
  rw [← hf]
  exact rounded_finish hq i s t _ _ _ d _ _ _ rfl rfl rfl

/-! #### SEED and RND (R104) -/

theorem onEl_one (guard : Byte) : onEl guard 1 0 = guard.getLsbD 0 := rfl

/-- An instruction that raises no flag leaves the flags and their first address (R25). -/
theorem Thread.flags_finish_of_zero {th : Thread} (h : th.pend = []) (i : Instr) (t : Turn) (s : State) {o : LaneOut} (ho : o.flags = 0) :
    (th.finish i t s.tick none o).fflags = th.fflags ∧ (th.finish i t s.tick none o).ffpc = th.ffpc := by
  have hr := Thread.raises_finish h i t s o
  exact ⟨by rw [hr.flags, ho]; exact BitVec.or_zero, hr.kept (.inl ho)⟩

/-- A lane that writes no register keeps them all. -/
theorem Thread.reg_finish_of_no_regs {th : Thread} (h : th.pend = []) (i : Instr) (t : Turn) (id : Nat) {o : LaneOut} (ho : o.regs = [])
    (r : Nat) : (th.finish i t id none o).reg r = th.reg r :=
  (Thread.advanced_finish h i t id o [] (o.preds.map (·.1)) (by simp [ho]) (fun _ hp => hp)).regs r (by simp)

theorem seedRnd_word (s : Word) : BitVec.ofNat 64 (seedRnd s) = (s.extractLsb' 32 32).zeroExtend 64 := by
  apply BitVec.eq_of_toNat_eq
  have := s.isLt
  simp [seedRnd, BitVec.extractLsb'_toNat]
  omega

/-- SEED sets the generator from A and the lane's number (R104). -/
theorem seed_mixes (a : BitVec 7) (s : State) (t : Turn) (m : Team) (g : Group) (hr : Ready (.seed a) s t m g) :
    Executes (.seed a) s t g [] [] (fun c th' => th'.fflags = c.th.fflags ∧ th'.ffpc = c.th.ffpc ∧
      th'.seed = if c.m.guard.getLsbD 0 then c.th.rd a ^^^ (BitVec.ofNat 64 c.lane * 0x9E3779B97F4A7C15) else c.th.seed) := by
  obtain ⟨s', he, hd⟩ := simd_done hr false (.inl rfl) (fun c =>
    if onEl c.m.guard 1 0 then { LaneOut.none with seed := some (c.th.rd a ^^^ laneSeed c.lane) } else LaneOut.none)
  refine executes_of_done hr he hd _ _ _ (fun c r h => ?_) (fun c p h => ?_) (fun c hc hq => ?_)
  · split at h <;> exact h
  · split at h <;> exact h
  · by_cases hg : c.m.guard.getLsbD 0
    · rw [onEl_one, if_pos hg, if_pos hg, ← and_assoc]
      exact ⟨Thread.flags_finish_of_zero hq _ t s rfl, Thread.seed_finish hq _ t _ _⟩
    · rw [onEl_one, if_neg hg, if_neg hg, ← and_assoc]
      exact ⟨Thread.flags_finish_of_zero hq _ t s rfl, Thread.seed_finish hq _ t _ _⟩

/-- RND steps the generator once and gives its high word (R104). -/
theorem rnd_steps (d : BitVec 7) (s : State) (t : Turn) (m : Team) (g : Group) (hr : Ready (.rnd d) s t m g) :
    Executes (.rnd d) s t g [d.toNat] [] (fun c th' => th'.fflags = c.th.fflags ∧ th'.ffpc = c.th.ffpc ∧
      if c.m.guard.getLsbD 0 then
        th'.seed = c.th.seed * 0x5851F42D4C957F2D + 0x14057B7EF767814F ∧
          th'.reg (c.th.ix d.toNat) = (th'.seed.extractLsb' 32 32).zeroExtend 64
      else th'.seed = c.th.seed ∧ th'.reg (c.th.ix d.toNat) = c.th.rd d) := by
  obtain ⟨s', he, hd⟩ := simd_done hr false (.inl rfl) (fun c =>
    if onEl c.m.guard 1 0 then
      { LaneOut.reg (c.th.ix d.toNat) (BitVec.ofNat 64 (seedRnd (seedStep c.th.seed))) with seed := some (seedStep c.th.seed) }
    else LaneOut.none)
  refine executes_of_done hr he hd _ _ _ (fun c r h => ?_) (fun c p h => ?_) (fun c hc hq => ?_)
  · split at h
    · exact h
    · exact absurd h List.not_mem_nil
  · split at h <;> exact h
  · by_cases hg : c.m.guard.getLsbD 0
    · rw [onEl_one, if_pos hg, if_pos hg, ← and_assoc]
      refine ⟨Thread.flags_finish_of_zero hq _ t s rfl, ?_⟩
      rw [Thread.seed_finish hq, Thread.reg_finish c.th _ t s.tick _ rfl]
      exact ⟨seedStep.eq_1 c.th.seed, seedRnd_word (seedStep c.th.seed)⟩
    · rw [onEl_one, if_neg hg, if_neg hg, ← and_assoc]
      exact ⟨Thread.flags_finish_of_zero hq _ t s rfl, Thread.seed_finish hq _ t _ _, Thread.reg_finish_of_no_regs hq _ t _ rfl _⟩

/-- Settles O40: CVT leaves a run of rounded elements, and SEED and RND act on the generator alone and on D. -/
theorem conversionsAndGenerator : Obligations.ConversionsAndGenerator := by
  unfold Obligations.ConversionsAndGenerator
  exact ⟨cvt_converts, seed_mixes, rnd_steps⟩

end Sys2Proof.Machine
end

section

/-! ### Block quantisation

CVTS (R103): magnitudes and S12 scales as rational numbers, the scale that a block takes, and what each lane receives. -/

namespace Sys2Proof.Machine

/-! #### Magnitudes as rational numbers -/

/-- The magnitude that a number and an exponent stand for. -/
def magQ (m : Nat × Int) : ℚ := m.1 * (2 : ℚ) ^ m.2

theorem magQ_nonneg (m : Nat × Int) : 0 ≤ magQ m := by unfold magQ; positivity

theorem zpow_two_split {a b : Int} (h : a ≤ b) : (2 : ℚ) ^ b = ((2 ^ (b - a).toNat : Nat) : ℚ) * 2 ^ a := by
  rw [Nat.cast_pow, Nat.cast_ofNat, ← zpow_natCast, Int.toNat_of_nonneg (by omega), ← zpow_add₀ (by norm_num), Int.sub_add_cancel]

/-- magGt compares magnitudes. -/
theorem magGt_iff (n1 : Nat) (e1 : Int) (n2 : Nat) (e2 : Int) : magGt n1 e1 n2 e2 = true ↔ magQ (n2, e2) < magQ (n1, e1) := by
  have hp (e : Int) : (0 : ℚ) < 2 ^ e := by positivity
  unfold magGt magQ
  split
  · next h =>
    simp only [decide_eq_true_eq]
    rw [zpow_two_split h, ← mul_assoc, mul_lt_mul_iff_of_pos_right (hp e2)]
    exact_mod_cast Iff.rfl
  · next h =>
    simp only [decide_eq_true_eq]
    rw [zpow_two_split (Int.le_of_lt (Int.not_le.1 h)), ← mul_assoc, mul_lt_mul_iff_of_pos_right (hp e1)]
    exact_mod_cast Iff.rfl

/-- The larger of a magnitude and an element's: NaNs and infinities count as 0 (R103). -/
theorem magQ_maxMag (m : Nat × Int) (v : FVal) : magQ (maxMag m v) = max (magQ m) v.mag := by
  cases v with
  | nan _ => exact (max_eq_left (magQ_nonneg m)).symm
  | inf _ => exact (max_eq_left (magQ_nonneg m)).symm
  | fin neg num exp =>
    have hg := magGt_iff num exp m.1 m.2
    simp only [maxMag]
    split
    · next h => exact (max_eq_right (hg.1 h).le).symm
    · next h => exact (max_eq_left (not_lt.1 (fun hc => h (hg.2 hc)))).symm

theorem magQ_foldl_maxMag (vs : List FVal) (m : Nat × Int) : magQ (vs.foldl maxMag m) = vs.foldl (fun q v => max q v.mag) (magQ m) := by
  induction vs generalizing m with
  | nil => rfl
  | cons v r ih => rw [List.foldl_cons, ih, magQ_maxMag, List.foldl_cons]

/-! #### Units and binary logarithms -/

/-- The whole part and the remainder of unitsAt are those of the value over the unit. -/
theorem unitsAt_ratio (num : Nat) {den : Nat} (exp q : Int) (hd : 0 < den) :
    ∃ n d : Nat, 0 < d ∧ unitsAt num den exp q = (n / d, n % d, d) ∧ (num : ℚ) / den * 2 ^ exp = n / d * 2 ^ q := by
  have hden : (den : ℚ) ≠ 0 := by positivity
  by_cases h : exp - q ≥ 0
  · refine ⟨num * 2 ^ (exp - q).toNat, den, hd, by simp only [unitsAt, if_pos h], ?_⟩
    rw [zpow_two_split (show q ≤ exp by omega)]
    push_cast
    field_simp
  · refine ⟨num, den * 2 ^ (-(exp - q)).toNat, by positivity, by simp only [unitsAt, if_neg h], ?_⟩
    rw [zpow_two_split (show exp ≤ q by omega), show -(exp - q) = q - exp by omega]
    push_cast
    field_simp

/-- A value in multiples of 2^q, rounded up. -/
def unitsUp (num den : Nat) (exp q : Int) : Nat :=
  let u := unitsAt num den exp q
  if u.2.1 = 0 then u.1 else u.1 + 1

theorem unitsUp_le_iff (num : Nat) {den : Nat} (exp q : Int) (hd : 0 < den) (k : Nat) :
    unitsUp num den exp q ≤ k ↔ (num : ℚ) / den * 2 ^ exp ≤ k * 2 ^ q := by
  obtain ⟨n, d, hpos, hu, hv⟩ := unitsAt_ratio num exp q hd
  have hq : (0 : ℚ) < 2 ^ q := by positivity
  have hdq : (0 : ℚ) < d := by exact_mod_cast hpos
  rw [hv, mul_le_mul_iff_of_pos_right hq, div_le_iff₀ hdq, unitsUp, hu]
  rw [show (n : ℚ) ≤ k * d ↔ n ≤ k * d by exact_mod_cast Iff.rfl]
  have hn := Nat.div_add_mod n d
  dsimp only
  split
  · next hr => rw [hr, Nat.add_zero] at hn; rw [← Nat.mul_le_mul_left_iff hpos, hn, Nat.mul_comm]
  · next hr =>
    have hne : n ≠ k * d := fun he => hr (by rw [he, Nat.mul_mod_left])
    rw [Nat.succ_le_iff, Nat.div_lt_iff_lt_mul hpos]
    omega

theorem cast_log2_bounds {n : Nat} (h : 0 < n) : (2 : ℚ) ^ (Nat.log2 n : Int) ≤ n ∧ (n : ℚ) < 2 ^ ((Nat.log2 n : Int) + 1) := by
  have hlo : 2 ^ Nat.log2 n ≤ n := Nat.log2_self_le h.ne'
  have hhi : n < 2 ^ (Nat.log2 n + 1) := Nat.lt_log2_self
  constructor
  · rw [zpow_natCast]; exact_mod_cast hlo
  · rw [← Nat.cast_succ, zpow_natCast]; exact_mod_cast hhi

/-- The comparison that ilog2 makes: whether num / den reaches 2^d. -/
theorem ilog2_reaches_iff (num : Nat) {den : Nat} (d : Int) (hd : 0 < den) :
    (if d ≥ 0 then den * 2 ^ d.toNat ≤ num else den ≤ num * 2 ^ (-d).toNat) ↔ (2 : ℚ) ^ d ≤ num / den := by
  have hden : (0 : ℚ) < den := by exact_mod_cast hd
  rw [le_div_iff₀ hden]
  split
  · next h =>
    rw [zpow_two_split (show (0 : Int) ≤ d by omega), zpow_zero, mul_one, Int.sub_zero, Nat.mul_comm]
    exact_mod_cast Iff.rfl
  · next h =>
    have hpos : (0 : ℚ) < ((2 ^ (-d).toNat : Nat) : ℚ) := by positivity
    have hs := zpow_two_split (show d ≤ 0 by omega)
    rw [zpow_zero, Int.zero_sub] at hs
    rw [← mul_le_mul_iff_of_pos_right hpos, show (2 : ℚ) ^ d * den * ((2 ^ (-d).toNat : Nat) : ℚ) = den by
      rw [mul_right_comm, mul_comm ((2 : ℚ) ^ d), ← hs, one_mul]]
    exact_mod_cast Iff.rfl

/-- ilog2 brackets a positive value between powers of two. -/
theorem ilog2_spec {num den : Nat} (exp : Int) (hn : 0 < num) (hd : 0 < den) :
    (2 : ℚ) ^ ilog2 num den exp ≤ (num : ℚ) / den * 2 ^ exp ∧ (num : ℚ) / den * 2 ^ exp < 2 ^ (ilog2 num den exp + 1) := by
  obtain ⟨hnl, hnh⟩ := cast_log2_bounds hn
  obtain ⟨hdl, hdh⟩ := cast_log2_bounds hd
  have hden : (0 : ℚ) < den := by exact_mod_cast hd
  have he : (0 : ℚ) < 2 ^ exp := by positivity
  have hg := ilog2_reaches_iff num ((Nat.log2 num : Int) - Nat.log2 den) hd
  have hlow : (2 : ℚ) ^ ((Nat.log2 num : Int) - Nat.log2 den - 1) ≤ num / den := by
    rw [le_div_iff₀ hden]
    calc (2 : ℚ) ^ ((Nat.log2 num : Int) - Nat.log2 den - 1) * den
        ≤ 2 ^ ((Nat.log2 num : Int) - Nat.log2 den - 1) * 2 ^ ((Nat.log2 den : Int) + 1) := by gcongr
      _ = 2 ^ (Nat.log2 num : Int) := by rw [← zpow_add₀ (by norm_num)]; congr 1; ring
      _ ≤ num := hnl
  have hhigh : (num : ℚ) / den < 2 ^ ((Nat.log2 num : Int) - Nat.log2 den + 1) := by
    rw [div_lt_iff₀ hden]
    calc (num : ℚ) < 2 ^ ((Nat.log2 num : Int) + 1) := hnh
      _ = 2 ^ ((Nat.log2 num : Int) - Nat.log2 den + 1) * 2 ^ (Nat.log2 den : Int) := by rw [← zpow_add₀ (by norm_num)]; congr 1; ring
      _ ≤ 2 ^ ((Nat.log2 num : Int) - Nat.log2 den + 1) * den := by gcongr
  have hscale : ∀ l : Int, (2 : ℚ) ^ l ≤ num / den → (num : ℚ) / den < 2 ^ (l + 1) →
      (2 : ℚ) ^ (l + exp) ≤ (num : ℚ) / den * 2 ^ exp ∧ (num : ℚ) / den * 2 ^ exp < 2 ^ (l + exp + 1) := by
    intro l h1 h2
    rw [show l + exp + 1 = l + 1 + exp by ring, zpow_add₀ (by norm_num) l, zpow_add₀ (by norm_num) (l + 1)]
    exact ⟨mul_le_mul_of_nonneg_right h1 he.le, mul_lt_mul_of_pos_right h2 he⟩
  unfold ilog2
  dsimp only
  by_cases h : (2 : ℚ) ^ ((Nat.log2 num : Int) - Nat.log2 den) ≤ num / den
  · rw [if_pos (by simpa using hg.2 h)]
    exact hscale _ h hhigh
  · rw [if_neg (by simpa using fun hc => h (hg.1 hc))]
    exact hscale _ hlow (by rw [Int.sub_add_cancel]; exact not_le.1 h)

/-! #### S12 scales (R34, R103) -/

/-- A finite S12 scale is a multiple of 2^-131 with an exponent of its own, below 32 units. -/
theorem s12Rational_units {b : Nat} {v : ℚ} (h : s12Rational b = some v) :
    ∃ (f : Nat) (e : Int), v = f * 2 ^ e ∧ f < 32 ∧ -131 ≤ e ∧ (e = -131 ∧ f < 16 ∨ -130 ≤ e ∧ 16 ≤ f) := by
  rw [s12Rational, Option.map_eq_some_iff] at h
  obtain ⟨⟨f, e⟩, hv, rfl⟩ := h
  unfold s12Value at hv
  dsimp only at hv
  refine ⟨f, e, rfl, ?_⟩
  split at hv
  · exact absurd hv (by simp)
  · split at hv
    · obtain ⟨rfl, rfl⟩ := Prod.mk.inj (Option.some.inj hv)
      omega
    · obtain ⟨rfl, rfl⟩ := Prod.mk.inj (Option.some.inj hv)
      omega

/-- The scale of exponent field e and fraction field f, for a normal scale. -/
theorem s12Rational_normal {e f : Nat} (he : 1 ≤ e) (he' : e ≤ 254) (hf : f < 16) :
    s12Rational (e * 16 + f) = some (((16 + f : Nat) : ℚ) * 2 ^ ((e : Int) - 131)) := by
  have h1 : (e * 16 + f) % 16 = f := by omega
  have h2 : (e * 16 + f) / 16 % 256 = e := by omega
  simp only [s12Rational, s12Value, h1, h2]
  rw [if_neg (by omega), if_neg (by omega)]
  rfl

theorem s12Rational_small {f : Nat} (hf : f < 16) : s12Rational f = some ((f : ℚ) * 2 ^ (-131 : Int)) := by
  have h1 : f % 16 = f := by omega
  have h2 : f / 16 % 256 = 0 := by omega
  simp only [s12Rational, s12Value, h1, h2]
  rfl

theorem s12Rational_le_of_exp_le {f : Nat} {a b : Int} (hf : f < 32) (h : (16 : ℚ) * 2 ^ b ≤ f * 2 ^ a) : b ≤ a := by
  by_contra hc
  have ha : (0 : ℚ) < 2 ^ a := by positivity
  have hb : (2 : ℚ) ^ (a + 1) ≤ 2 ^ b := zpow_le_zpow_right₀ (by norm_num) (by omega)
  rw [zpow_add_one₀ (by norm_num)] at hb
  have hf' : (f : ℚ) < 32 := by exact_mod_cast hf
  nlinarith

/-- The unit in which s12Above counts, for a value whose binary logarithm is l. -/
def s12Unit (l : Int) : Int := max (l - 4) (-131)

/-- What s12Above finds of a positive value x: its unit, and the units in it rounded up. -/
structure S12Units (x : ℚ) (q : Int) (k : Nat) : Prop where
  low : -131 ≤ q
  le_iff : ∀ n : Nat, k ≤ n ↔ x ≤ n * 2 ^ q
  lt : x < 32 * 2 ^ q
  normal : -131 < q → 16 * 2 ^ q ≤ x

theorem s12Units_of {num den : Nat} (exp : Int) (hn : 0 < num) (hd : 0 < den) :
    S12Units ((num : ℚ) / den * 2 ^ exp) (s12Unit (ilog2 num den exp)) (unitsUp num den exp (s12Unit (ilog2 num den exp))) := by
  obtain ⟨hlo, hhi⟩ := ilog2_spec exp hn hd
  refine ⟨le_max_right _ _, unitsUp_le_iff num exp _ hd, lt_of_lt_of_le hhi ?_, fun hq => le_trans ?_ hlo⟩
  · rw [show (32 : ℚ) = 2 ^ (5 : Int) by norm_num, ← zpow_add₀ (by norm_num)]
    exact zpow_le_zpow_right₀ (by norm_num) (by unfold s12Unit; omega)
  · rw [show (16 : ℚ) = 2 ^ (4 : Int) by norm_num, ← zpow_add₀ (by norm_num)]
    exact zpow_le_zpow_right₀ (by norm_num) (by unfold s12Unit at *; omega)

section
variable {x : ℚ} {q : Int} {k : Nat}

theorem S12Units.le (h : S12Units x q k) : x ≤ k * 2 ^ q := (h.le_iff k).1 le_rfl

theorem S12Units.k_le (h : S12Units x q k) : k ≤ 32 := (h.le_iff 32).2 h.lt.le

theorem S12Units.gt (h : S12Units x q k) {n : Nat} (hn : n < k) : n * 2 ^ q < x := not_le.1 (fun hc => absurd ((h.le_iff n).2 hc) (by omega))

theorem S12Units.le_k (h : S12Units x q k) (hq : -131 < q) : 16 ≤ k := by
  by_contra hc
  have h15 : x ≤ (15 : Nat) * 2 ^ q := (h.le_iff 15).1 (by omega)
  have hpos : (0 : ℚ) < 2 ^ q := by positivity
  have h16 := h.normal hq
  push_cast at h15
  linarith

/-- A finite scale not below x is not below x rounded up to its unit. -/
theorem S12Units.le_scale (h : S12Units x q k) {b : Nat} {v : ℚ} (hv : s12Rational b = some v) (hx : x ≤ v) : k * 2 ^ q ≤ v := by
  obtain ⟨f, e, rfl, hf, he, _⟩ := s12Rational_units hv
  have hqe : q ≤ e := by
    rcases h.low.eq_or_lt with hq | hq
    · omega
    · exact s12Rational_le_of_exp_le hf ((h.normal hq).trans hx)
  rw [zpow_two_split hqe, ← mul_assoc] at hx ⊢
  have hk := (h.le_iff (f * 2 ^ (e - q).toNat)).2 (by exact_mod_cast hx)
  have hpos : (0 : ℚ) < 2 ^ q := by positivity
  refine mul_le_mul_of_nonneg_right ?_ hpos.le
  exact_mod_cast hk

/-- The smallest finite scale not below x, or the largest finite scale (R103). -/
def SmallestScale (x : ℚ) (b : Nat) : Prop :=
  b < 4096 ∧ ∃ v, s12Rational b = some v ∧ (x ≤ v ∨ b = 0xFEF) ∧ ∀ b' v', b' < 4096 → s12Rational b' = some v' → x ≤ v' → v ≤ v'

/-- The scale that is x rounded up to its unit is the smallest. -/
theorem S12Units.smallest (h : S12Units x q k) {b : Nat} (hb : b < 4096) (hv : s12Rational b = some ((k : ℚ) * 2 ^ q)) : SmallestScale x b :=
  ⟨hb, _, hv, .inl h.le, fun _ _ _ hv' hx => h.le_scale hv' hx⟩

/-- Above the largest finite scale, that one is chosen. -/
theorem smallestScale_of_gt (hx : 31 * 2 ^ (123 : Int) < x) : SmallestScale x 0xFEF := by
  refine ⟨by decide, _, s12Rational_normal (e := 254) (f := 15) (by decide) (by decide) (by decide), .inr rfl, fun _ _ _ _ h => ?_⟩
  have he : ((254 : Nat) : Int) - 131 = 123 := by norm_num
  rw [he]
  push_cast
  linarith

/-- Between the scales of exponent field 0, which end below 2^-127, and the smallest normal scale 2^-126 lies none. -/
theorem S12Units.smallest_gap (h : S12Units x (-131) k) (hk : 16 ≤ k) : SmallestScale x 16 := by
  have hv := s12Rational_normal (e := 1) (f := 0) (by decide) (by decide) (by decide)
  have hexp : (2 : ℚ) ^ (((1 : Nat) : Int) - 131) = 2 * 2 ^ (-131 : Int) := by
    rw [show ((1 : Nat) : Int) - 131 = -131 + 1 by norm_num, zpow_add_one₀ (by norm_num), mul_comm]
  have hpos : (0 : ℚ) < 2 ^ (-131 : Int) := by positivity
  refine ⟨by decide, _, hv, .inl ?_, fun b' v' _ hv' hx => ?_⟩
  · rw [hexp]
    have := h.lt
    push_cast
    linarith
  · obtain ⟨f, e, rfl, _, _, hfe⟩ := s12Rational_units hv'
    have h15 := h.gt (n := 15) (by omega)
    rcases hfe with ⟨rfl, hf⟩ | ⟨he, hf⟩
    · have hf' : (f : ℚ) ≤ 15 := by exact_mod_cast Nat.le_of_lt_succ hf
      push_cast at h15
      nlinarith
    · have hle : (2 : ℚ) ^ (((1 : Nat) : Int) - 131) ≤ 2 ^ e := zpow_le_zpow_right₀ (by norm_num) (by push_cast; omega)
      gcongr

/-- The number of the scale of k units of 2^q, for k below 32. -/
def s12Pack (k : Nat) (q : Int) : Nat :=
  if q + 131 ≤ 0 then (if k < 16 then k else 16) else if q + 131 > 254 then 0xFEF else (q + 131).toNat * 16 + (k - 16)

theorem s12Rational_pack {n : Nat} {r : Int} (h1 : 1 ≤ r + 131) (h2 : r + 131 ≤ 254) (hn : 16 ≤ n) (hn' : n < 32) :
    s12Pack n r < 4096 ∧ s12Rational (s12Pack n r) = some ((n : ℚ) * 2 ^ r) := by
  have hp : s12Pack n r = (r + 131).toNat * 16 + (n - 16) := by rw [s12Pack, if_neg (by omega), if_neg (by omega)]
  rw [hp, s12Rational_normal (by omega) (by omega) (by omega), show (((r + 131).toNat : Nat) : Int) - 131 = r by omega,
    show 16 + (n - 16) = n by omega]
  exact ⟨by omega, rfl⟩

theorem s12Pack_of_gt {n : Nat} {r : Int} (h : 254 < r + 131) : s12Pack n r = 0xFEF := by
  rw [s12Pack, if_neg (by omega), if_pos h]

/-- What s12Above answers is the smallest scale: a full 32 units carry into the exponent. -/
theorem S12Units.smallest_pack (h : S12Units x q k) : SmallestScale x (if k = 32 then s12Pack 16 (q + 1) else s12Pack k q) := by
  have hlow := h.low
  have hk := h.k_le
  have hbig : ∀ {r : Int}, 123 ≤ r → (2 : ℚ) ^ (123 : Int) ≤ 2 ^ r := fun hr => zpow_le_zpow_right₀ (by norm_num) hr
  have hpos : (0 : ℚ) < 2 ^ (123 : Int) := by positivity
  split
  · next h32 =>
    by_cases he : q + 1 + 131 ≤ 254
    · obtain ⟨hb, hv⟩ := s12Rational_pack (n := 16) (r := q + 1) (by omega) he (by decide) (by decide)
      refine h.smallest hb (hv.trans ?_)
      rw [h32, zpow_add_one₀ (by norm_num)]
      congr 1
      push_cast
      ring
    · rw [s12Pack_of_gt (by omega)]
      have h31 := h.gt (n := 31) (by omega)
      have := hbig (r := q) (by omega)
      push_cast at h31
      exact smallestScale_of_gt (by linarith)
  · next h32 =>
    rcases hlow.eq_or_lt with hq | hq
    · subst hq
      by_cases h16 : k < 16
      · rw [s12Pack, if_pos (by decide), if_pos h16]
        exact h.smallest (by omega) (s12Rational_small h16)
      · rw [s12Pack, if_pos (by decide), if_neg h16]
        exact h.smallest_gap (by omega)
    · by_cases he : q + 131 ≤ 254
      · obtain ⟨hb, hv⟩ := s12Rational_pack (n := k) (r := q) (by omega) he (h.le_k hq) (by omega)
        exact h.smallest hb hv
      · rw [s12Pack_of_gt (by omega)]
        have hn := h.normal hq
        have h2 : (2 : ℚ) ^ (124 : Int) ≤ 2 ^ q := zpow_le_zpow_right₀ (by norm_num) (by omega)
        rw [show (124 : Int) = 123 + 1 by norm_num, zpow_add_one₀ (by norm_num)] at h2
        exact smallestScale_of_gt (by linarith)

end

theorem s12Above_eq {num : Nat} (den : Nat) (exp : Int) (h : num ≠ 0) : s12Above num den exp =
    if unitsUp num den exp (s12Unit (ilog2 num den exp)) = 32 then s12Pack 16 (s12Unit (ilog2 num den exp) + 1)
    else s12Pack (unitsUp num den exp (s12Unit (ilog2 num den exp))) (s12Unit (ilog2 num den exp)) := by
  rw [s12Above, if_neg h]
  generalize hq : s12Unit (ilog2 num den exp) = q
  have hu : unitsUp num den exp q = if (unitsAt num den exp q).2.1 = 0 then (unitsAt num den exp q).1 else (unitsAt num den exp q).1 + 1 := rfl
  have hp : ∀ x : Nat × Int, s12Pack x.1 x.2 = if x.2 + 131 ≤ 0 then (if x.1 < 16 then x.1 else 16)
      else if x.2 + 131 > 254 then 0xFEF else (x.2 + 131).toNat * 16 + (x.1 - 16) := fun _ => rfl
  simp only [show max (ilog2 num den exp - 4) (-131) = q from hq, ← hu, ← hp]
  split <;> rfl

/-- The scale that CVTS chooses for a largest magnitude is that of R103. -/
theorem isScale_s12Above (m : Nat × Int) {L : Nat} (hL : 0 < L) : IsScale (magQ m) L (s12Above m.1 L m.2) := by
  have he : (0 : ℚ) < 2 ^ m.2 := by positivity
  unfold IsScale
  split
  · next h =>
    have h0 : m.1 = 0 := by
      rcases mul_eq_zero.1 h with h | h
      · exact_mod_cast h
      · exact absurd h he.ne'
    rw [s12Above, if_pos h0]
  · next h =>
    have hne : m.1 ≠ 0 := fun h0 => h (by rw [magQ, h0, Nat.cast_zero, zero_mul])
    rw [s12Above_eq L m.2 hne, show magQ m / L = (m.1 : ℚ) / L * 2 ^ m.2 by rw [magQ]; ring]
    exact (s12Units_of m.2 (Nat.pos_of_ne_zero hne) hL).smallest_pack

/-! #### CVTS (R103) -/

/-- CVTS takes codes from a source at least as wide, and its largest code value is positive. -/
theorem cvtsCodes_facts {sc dc : BitVec 4} (h : cvtsCodesOk sc dc = true) : typeWidth dc ≤ typeWidth sc ∧ 0 < scaledMax dc.toNat := by
  revert sc dc
  decide

theorem cvts_wf {d a : BitVec 7} {p : BitVec 3} {sc dc : BitVec 4} (h : (Instr.cvts d a p sc dc).wf = true) :
    cvtsCodesOk sc dc = true ∧ d.toNat % 2 = 0 := by
  simp only [Instr.wf, Instr.wordCodeOk, Instr.fieldOk, aligned, Bool.and_eq_true, beq_iff_eq] at h
  exact ⟨h.1.1.2, h.2.2⟩

/-- The registers of an even field and of the next one are two. -/
theorem Thread.ix_succ_ne (th : Thread) {f : Nat} (h : f % 2 = 0) : th.ix f ≠ th.ix (f + 1) := by
  unfold Thread.ix
  split <;> split <;> omega

/-- The two registers that a lane writes. -/
theorem Thread.reg_finish_pair (th : Thread) (i : Instr) (t : Turn) (id : Nat) (o : LaneOut) {r q : Nat} {v w : Word}
    (ho : o.regs = [(r, v), (q, w)]) (hrq : r ≠ q) :
    (th.finish i t id none o).reg r = v ∧ (th.finish i t id none o).reg q = w := by
  simp only [Thread.finish, Thread.receive, Thread.land_reg, Pending.ofOut, ho, List.map_cons, List.map_nil, List.foldl_cons, List.foldl_nil]
  exact ⟨(Thread.reg_setReg_of_ne _ _ hrq).trans (Thread.reg_setReg_same _ _ _), Thread.reg_setReg_same _ _ _⟩

/-- The elements that CVTS reads in a lane are those of R101, from a source at least as wide. -/
theorem quantEls_eq (p : BitVec 3) {sc dc : BitVec 4} (a : BitVec 7) (hw : typeWidth dc ≤ typeWidth sc) :
    quantEls p sc dc a ((Fmt.ofCode sc.toNat).getD .fp32) = quantValues a sc dc := by
  funext c
  simp only [quantEls, quantValues, cvtSource, if_pos hw]
  rfl

/-- The values of the block of an issue set that a lane's elements belong to (R103). -/
def blockValues (t : Turn) (g : Group) (a : BitVec 7) (sc dc : BitVec 4) (c : LaneCtx) : List (Nat × FVal × FFlags) :=
  ((issueLanes t g).filter (fun x => blockOf sc dc x.lane == blockOf sc dc c.lane)).flatMap (quantValues a sc dc)

/-- What each lane of a CVTS gives, from the block that it lies in. -/
def cvtsLane (t : Turn) (g : Group) (d a : BitVec 7) (p : BitVec 3) (sc dc : BitVec 4) (c : LaneCtx) : LaneOut :=
  quantLane d p sc dc ((Fmt.ofCode sc.toNat).getD .fp32) ((Fmt.ofCode dc.toNat).getD .e4m3)
    ((blockValues t g a sc dc c).map (·.2.1)) (quantValues a sc dc c) c

/-- CVTS computes its lanes from the values read in every lane. -/
theorem execCvts_eq {d a : BitVec 7} {p : BitVec 3} {sc dc : BitVec 4} {s : State} {t : Turn} {m : Team} {g : Group}
    (hw : typeWidth dc ≤ typeWidth sc) (hr : Ready (.cvts d a p sc dc) s t m g) :
    exec (.cvts d a p sc dc) s = simd (.cvts d a p sc dc) s true (cvtsLane t g d a p sc dc) := by
  change execCvts d a p sc dc s = _
  rw [execCvts, simd, issue_ready hr, issue_ready hr]
  simp only [quantEls_eq p a hw, List.map_map, List.filter_map, List.flatMap_map]
  congr 1
  apply List.map_congr_left
  intro c _
  rw [cvtsLane, blockValues, List.map_flatMap]
  rfl

/-- The scale of a block's values is that of R103, and the NaN mark says whether one of them is a NaN. -/
theorem blockScale_spec {dc : BitVec 4} (hL : 0 < scaledMax dc.toNat) (vs : List (Nat × FVal × FFlags)) :
    IsScale (vs.foldl (fun q v => max q v.2.1.mag) 0) (scaledMax dc.toNat) (blockScale dc (vs.map (·.2.1))).1 ∧
      (blockScale dc (vs.map (·.2.1))).2 = vs.any (fun v => v.2.1.isNan) := by
  constructor
  · have hm := magQ_foldl_maxMag (vs.map (·.2.1)) (0, 0)
    rw [List.foldl_map (f := fun v : Nat × FVal × FFlags => v.2.1) (g := fun q (v : FVal) => max q v.mag),
      show magQ (0, 0) = 0 by simp [magQ]] at hm
    rw [← hm]
    exact isScale_s12Above _ hL
  · rw [blockScale, List.any_map]
    refine congrArg vs.any (funext fun v => ?_)
    rfl

theorem quantValues_fst (a : BitVec 7) (sc dc : BitVec 4) (c : LaneCtx) :
    (quantValues a sc dc c).map (·.1) = activeEls (cvtCount sc dc) c.m.guard := by
  simp only [quantValues, List.map_map]
  exact List.map_id' _

/-- The value of an active element of a lane. -/
theorem find_quantValues (a : BitVec 7) (sc dc : BitVec 4) (c : LaneCtx) {k : Nat} (hk : k < cvtCount sc dc)
    (ho : onEl c.m.guard (cvtCount sc dc) k) : (((quantValues a sc dc c).find? (·.1 = k)).map (·.2)) =
      some (((Fmt.ofCode sc.toNat).getD .fp32).read c.m.ftz (el (typeWidth sc) (c.th.rd a) k)) := by
  have hf := find_activeEls (cvtCount sc dc) 0 c.m.guard (fun k => ((Fmt.ofCode sc.toNat).getD .fp32).read c.m.ftz (el (typeWidth sc) (c.th.rd a) k)) k
  simp only [Nat.zero_add, Nat.zero_le, Nat.sub_zero, true_and] at hf
  rw [if_pos ⟨hk, ho⟩] at hf
  exact congrArg (Option.map (·.2)) hf

/-- The code of element k of a lane under a scale, from a random word (R103). -/
def cvtsCode (a : BitVec 7) (sc dc : BitVec 4) (c : LaneCtx) (scale rnd k : Nat) : Nat × FFlags :=
  quantCode ((Fmt.ofCode sc.toNat).getD .fp32) ((Fmt.ofCode dc.toNat).getD .e4m3) (c.m.rounding rnd) scale
    ((((quantValues a sc dc c).find? (·.1 = k)).map (·.2)).getD (.nan false, 0))

/-- A lane with an active element writes a run of codes and its block's scale. -/
theorem cvtsLane_of_active (t : Turn) (g : Group) (d a : BitVec 7) (p : BitVec 3) (sc dc : BitVec 4) (c : LaneCtx)
    (h : quantValues a sc dc c ≠ []) :
    let B := blockScale dc ((blockValues t g a sc dc c).map (·.2.1))
    let run := formEls c.stochastic (cvtsCode a sc dc c B.1) (activeEls (cvtCount sc dc) c.m.guard) c.th.seed
    (cvtsLane t g d a p sc dc c).regs = [(c.th.ix d.toNat, run.into (typeWidth dc) (cvtBase p sc dc) (c.th.rd d)),
      (c.th.ix (d.toNat + 1), BitVec.ofNat 64 (if B.2 then 0xFF0 else B.1))] ∧
    (cvtsLane t g d a p sc dc c).seed = if c.stochastic then some run.seed else none := by
  have he : (quantValues a sc dc c).isEmpty = false := by simpa using h
  simp only [cvtsLane, quantLane, he, quantValues_fst]
  exact ⟨rfl, rfl⟩

/-- Settles O3: the largest magnitude is carried as a rational number through the fold, so that the chosen scale is the least; the codes are a
run of rounded elements. -/
theorem blockQuantise : Obligations.BlockQuantise := by
  unfold Obligations.BlockQuantise
  intro d a p sc dc s t m g hwf hr hn
  obtain ⟨hcodes, heven⟩ := cvts_wf hwf
  obtain ⟨hw, hL⟩ := cvtsCodes_facts hcodes
  obtain ⟨s', he, hd⟩ := simd_done hr true (.inr hn) (cvtsLane t g d a p sc dc)
  refine executes_of_done hr ((execCvts_eq hw hr).trans he) hd _ _ _ (fun c r h => ?_) (fun c q h => ?_) (fun c hc hq => ?_)
  · unfold cvtsLane quantLane at h
    split at h
    · exact absurd h List.not_mem_nil
    · exact h
  · unfold cvtsLane quantLane at h
    split at h <;> exact absurd h List.not_mem_nil
  · intro N D T vals nan
    split
    · next hempty =>
      have ho : cvtsLane t g d a p sc dc c = LaneOut.none := by rw [cvtsLane, quantLane, hempty]; rfl
      rw [ho]
      obtain ⟨hf, hp⟩ := Thread.flags_finish_of_zero hq (.cvts d a p sc dc) t s (o := LaneOut.none) rfl
      exact ⟨Thread.reg_finish_of_no_regs hq _ t _ rfl _, Thread.reg_finish_of_no_regs hq _ t _ rfl _, hf, hp, Thread.seed_finish hq _ t _ _⟩
    · next hactive =>
      obtain ⟨hscale, hnan⟩ := blockScale_spec hL (blockValues t g a sc dc c)
      obtain ⟨hregs, hseed⟩ := cvtsLane_of_active t g d a p sc dc c hactive
      obtain ⟨hcode, hreg⟩ := c.th.reg_finish_pair (.cvts d a p sc dc) t s.tick _ hregs (c.th.ix_succ_ne heven)
      refine ⟨_, hscale, ?_, fun j hj => ?_, ?_⟩
      · rw [hreg, hnan]
        rfl
      · rw [hcode, elem_formEls_into _ _ _ _ _ _ _ _ j hj, cvtBase, if_pos hw]
        refine ite_congr rfl (fun hact => ?_) (fun _ => rfl)
        obtain ⟨hlo, hhi, ho⟩ := hact
        have hk : j - p.toNat * cvtCount sc dc < cvtCount sc dc := by change j - p.toNat * N < N; omega
        rw [cvtsCode, find_quantValues a sc dc c hk ho]
        rfl
      · rw [Thread.seed_finish hq, hseed, formEls_active_seed]
        change _ = if c.stochastic then _ else _
        cases c.stochastic <;> rfl

end Sys2Proof.Machine
end

section

/-! ### Integer products of the matrix engine

MMA of INT8 and NAT8 (R45, R126, R127, R137): an accumulator element is its input plus 64 products, modulo 2^32. -/

namespace Sys2Proof.Machine

/-! #### What a lane of the accumulator receives -/

/-- An accumulator register of two elements: each active one takes what `f` forms, and the others stay (R14, R127). -/
theorem elem_destReg (guard : Byte) (old : Word) (f : Nat → Nat × FFlags) {i : Nat} (hi : i < 2) :
    elem 32 (destReg false guard old f).1 i = if onEl guard 2 i then BitVec.ofNat 32 (f i).1 else elem 32 old i := by
  have hfst : ∀ (l : List Nat) (acc : Word × FFlags), (l.foldl (fun acc i => (setEl 32 acc.1 i (f i).1, acc.2 ||| (f i).2)) acc).1 =
      (l.map (fun k => (0 + k, (f k).1))).foldl (fun x e => setEl 32 x e.1 e.2) acc.1 := by
    intro l
    induction l with
    | nil => exact fun _ => rfl
    | cons k r ih => intro acc; rw [List.foldl_cons, ih, List.map_cons, List.foldl_cons, Nat.zero_add]
  have hnd : (((activeEls 2 guard).map (fun k => (0 + k, (f k).1))).map (·.1)).Nodup := by
    simpa [List.map_map, Function.comp_def] using activeEls_nodup 2 guard
  change elem 32 ((activeEls 2 guard).foldl (fun acc i => (setEl 32 acc.1 i (f i).1, acc.2 ||| (f i).2)) (old, 0)).1 i = _
  rw [hfst, elem_setEls 32 _ old i (by omega) hnd, find_activeEls 2 0 guard (fun k => (f k).1) i]
  by_cases ho : onEl guard 2 i
  · rw [if_pos ⟨Nat.zero_le _, by omega, ho⟩, if_pos ho]
    rfl
  · rw [if_neg (fun hc => ho hc.2.2), if_neg ho]

/-- Elements without flags leave a register without flags. -/
theorem flags_destReg (fp64 : Bool) (guard : Byte) (old : Word) (f : Nat → Nat × FFlags) (h : ∀ i, (f i).2 = 0) :
    (destReg fp64 guard old f).2 = 0 :=
  List.foldlRecOn _ _ (motive := fun acc : Word × FFlags => acc.2 = 0) rfl (fun acc ha i _ => by simp only [ha, h]; rfl)

theorem MatLane.receive_regs_fst (l : MatLane) (grp : Nat) (fp64 isFloat z : Bool) (nz : Nat) (f : Nat → Nat → Nat → Nat × FFlags) :
    (l.receive grp fp64 isFloat z nz f).regs.map (·.1) = l.arr.dRegs := by
  simp only [MatLane.receive, List.map_map]
  exact List.zipIdx_map_fst 0 l.arr.dRegs

/-- Elements without flags leave a result without flags and without a non-finite mark. -/
theorem MatLane.receive_flags (l : MatLane) (grp : Nat) (fp64 isFloat z : Bool) (nz : Nat) (f : Nat → Nat → Nat → Nat × FFlags)
    (h : ∀ j i x, (f j i x).2 = 0) : (l.receive grp fp64 isFloat z nz f).flags = 0 ∧ (l.receive grp fp64 isFloat z nz f).bad = false := by
  have hf : (l.receive grp fp64 isFloat z nz f).flags = 0 := by
    refine List.foldlRecOn _ _ (motive := fun fl : FFlags => fl = 0) rfl (fun fl hfl r hr => ?_)
    obtain ⟨e, _, rfl⟩ := List.mem_map.1 hr
    simp only [hfl, flags_destReg fp64 _ _ _ (fun i => h _ i _)]
    rfl
  refine ⟨hf, ?_⟩
  change (isFloat && (l.receive grp fp64 isFloat z nz f).flags &&& flagNF != 0) = false
  rw [hf]
  cases isFloat <;> rfl

/-- The new value of register j of a lane. -/
theorem MatLane.receive_reg (l : MatLane) (grp : Nat) (isFloat z : Bool) (nz : Nat) (f : Nat → Nat → Nat → Nat × FFlags) {j : Nat}
    (hj : j < l.arr.dRegs.length) : ((l.receive grp false isFloat z nz f).regs[j]?).map (·.2) =
      some (destReg false l.arr.guard (l.arr.dOld.getD j 0) (fun i =>
        f j i (if z then nz else el 32 (l.arr.d.getD j (.val 0)).value i))).1 := by
  have hd : ((l.arr.d[j]?).map AccSrc.value).getD 0 = (l.arr.d.getD j (.val 0)).value := by
    rw [List.getD_eq_getElem?_getD]
    cases l.arr.d[j]? <;> rfl
  simp only [MatLane.receive, List.getElem?_map, List.getElem?_zipIdx, List.getElem?_eq_getElem hj, Option.map_some, Nat.zero_add, hd]
  rfl

/-! #### One element of a product -/

theorem foldl_add_eq_sum (g : Nat → Int) (l : List Nat) (d : Int) : l.foldl (fun acc k => acc + g k) d = d + (l.map g).sum := by
  induction l generalizing d with
  | nil => simp
  | cons k r ih => rw [List.foldl_cons, ih, List.map_cons, List.sum_cons, Int.add_assoc]

/-- The low n bits of a number read as a signed one. -/
theorem sgn_eq_toInt {w : Nat} (hw : 0 < w) (n : Nat) : sgn w n = (BitVec.ofNat w n).toInt := by
  obtain ⟨w, rfl⟩ := Nat.exists_eq_succ_of_ne_zero hw.ne'
  rw [BitVec.toInt_eq_toNat_cond, BitVec.toNat_ofNat, sgn, Nat.succ_sub_one, Nat.pow_succ]
  split <;> split <;> push_cast <;> omega

theorem ofNat_wrap (w : Nat) (v : Int) : BitVec.ofNat w (wrap w v) = BitVec.ofInt w v := by
  apply BitVec.eq_of_toNat_eq
  rw [wrap, BitVec.toNat_ofNat, BitVec.toNat_ofInt]
  apply Nat.mod_eq_of_lt
  have := Int.emod_lt_of_pos v (show (0 : Int) < ((2 ^ w : Nat) : Int) by positivity)
  have := Int.emod_nonneg v (show ((2 ^ w : Nat) : Int) ≠ 0 by positivity)
  omega

/-- A table whose keys differ holds each of its entries. -/
theorem Table.find_of_mem {α : Type} {t : Table α} (hn : (t.map (·.1)).Nodup) {q : Nat} {x : α} (h : (q, x) ∈ t) : t.find q = some x := by
  induction t with
  | nil => exact absurd h List.not_mem_nil
  | cons e r ih =>
    obtain ⟨k, v⟩ := e
    rw [List.map_cons, List.nodup_cons] at hn
    rcases List.mem_cons.1 h with he | h
    · obtain ⟨rfl, rfl⟩ := Prod.mk.inj he
      exact if_pos rfl
    · have hk : q ≠ k := fun hc => hn.1 (List.mem_map.2 ⟨_, h, hc⟩)
      rw [Table.find, if_neg hk]
      exact ih hn.2 h

theorem Table.find_range {α : Type} (f : Nat → α) {n q : Nat} (h : q < n) : Table.find ((List.range n).map (fun k => (k, f k))) q = some (f q) := by
  refine Table.find_of_mem ?_ (List.mem_map.2 ⟨q, List.mem_range.2 h, rfl⟩)
  rw [List.map_map]
  exact (List.map_id' (List.range n)).symm ▸ List.nodup_range

/-- INT8 or NAT8 (R125). -/
def IsByteType (t : BitVec 4) : Prop := t = 11 ∨ t = 12

theorem fragEl_byteOf (rs : List Word) (p : Nat) : fragEl 8 rs p = (byteOf rs p).toNat := (elem_toNat 8 _ _).symm

/-- The integer that an element of 8 bits stands for, by its type. -/
theorem intSigned_byte {t : BitVec 4} (ht : IsByteType t) (x : BitVec 8) :
    (if intSigned t.toNat then sgn 8 x.toNat else (x.toNat : Int)) = intOf t x := by
  rcases ht with rfl | rfl
  · rw [intOf, if_pos rfl, sgn_eq_toInt (by decide), BitVec.ofNat_toNat, BitVec.setWidth_eq]
    rfl
  · rfl

/-- The product of the bytes at position k of a row of A and of a column of B. -/
def byteProduct (ta tb : BitVec 4) (A B : Nat → List Word) (row col k : Nat) : Int :=
  intOf ta (byteOf (A (row + 16 * (k / 32))) (k % 32)) * intOf tb (byteOf (B (col + 16 * (k / 32))) (k % 32))

/-- An element of an integer product is its input plus 64 products, modulo 2^32, without flags (R45, R126). -/
theorem productElement_int {ta tb : BitVec 4} (hta : IsByteType ta) (htb : IsByteType tb) (A B : Nat → List Word) (sc : Bool)
    (sa sb : Table Word) {row col : Nat} (hrow : row < 16) (hcol : col < 16) (din : Nat) :
    productElement ta.toNat tb.toNat none sc ((List.range 32).map (fun k => (k, A k))) sa ((List.range 32).map (fun k => (k, B k))) sb row col din =
      (wrap 32 (din + ((List.range 64).map (byteProduct ta tb A B row col)).sum), 0) := by
  have hE : perReg ta.toNat = 8 := by rcases hta with rfl | rfl <;> rfl
  have hacc : accFmt ta.toNat = none := by rcases hta with rfl | rfl <;> rfl
  have hA : ∀ k < 64, aElement 8 none ((List.range 32).map (fun k => (k, A k))) row k = some (byteOf (A (row + 16 * (k / 32))) (k % 32)).toNat := by
    intro k hk
    simp only [aElement, alongK]
    rw [Table.find_range A (by omega), Option.map_some, fragEl_byteOf]
  simp only [productElement, hE, hacc, Option.isSome_none, Bool.false_eq_true, if_false]
  rw [List.map_congr_left (g := fun k => some ((byteOf (A (row + 16 * (k / 32))) (k % 32)).toNat, (byteOf (B (col + 16 * (k / 32))) (k % 32)).toNat))
    (fun k hk => ?_), List.foldl_map]
  · simp only [Option.map_some, Option.getD_some, intSigned_byte hta, intSigned_byte htb]
    exact congrArg (fun v => (wrap 32 v, (0 : FFlags))) (foldl_add_eq_sum (byteProduct ta tb A B row col) (List.range 64) din)
  · have hk64 : k < 64 := List.mem_range.1 hk
    rw [hA k hk64, alongK, Table.find_range B (by omega)]
    simp only [fragEl_byteOf]

theorem accFmt_byte {t : BitVec 4} (ht : IsByteType t) : accFmt t.toNat = none := by rcases ht with rfl | rfl <;> rfl

/-- Integer products raise no flag, wherever the element lies (R50). -/
theorem productElement_int_flags {ta : BitVec 4} (hta : IsByteType ta) (tb : Nat) (sparse : Option Nat) (sc : Bool) (a : Table (List Word))
    (sa : Table Word) (b : Table (List Word)) (sb : Table Word) (row col din : Nat) :
    (productElement ta.toNat tb sparse sc a sa b sb row col din).2 = 0 := by
  simp only [productElement, accFmt_byte hta]

/-- What the lanes of a member receive from an unscaled integer MMA. -/
theorem member_int {o : MatOp} {d a b sa sb : BitVec 7} {l : BitVec 4} {z : BitVec 1} {cv : BitVec 3} {ta tb : BitVec 4}
    (hlead : o.leader = .mma d a b l 0 z sa sb cv ta tb) (hta : IsByteType ta) (const : Memory) (tick : Nat) (x : MatMember) :
    o.member const tick x = x.lanes.map (fun y => y.receive x.grp false false (z == 1#1) 0 (fun j i din =>
      productElement ta.toNat tb.toNat none false o.a o.sa (x.supply (fun r => r.b.map AccSrc.value)) (x.lanes.map (fun y => (y.lane, y.arr.sb)))
        (accPlace false y.lane j i).1 (accPlace false y.lane j i).2 din)) := by
  have h1 : (ta.toNat == 1) = false := by rcases hta with rfl | rfl <;> rfl
  simp only [MatOp.member, hlead, accFmt_byte hta, h1]
  rfl

/-- Settles O12: the lanes' registers are looked up where R126 puts each position, and the sum is carried as an integer. -/
theorem integerProducts : Obligations.IntegerProducts := by
  unfold Obligations.IntegerProducts
  intro o x const tick A B d a b sa sb l z cv ta tb hlead hta htb ha hb y hy hdr hdo
  have hbt : x.supply (fun r => r.b.map AccSrc.value) = (List.range 32).map (fun k => (k, B k)) := by
    have hm := congrArg (List.map (fun e : Nat × List AccSrc => (e.1, e.2.map AccSrc.value))) hb
    simpa [List.map_map, Function.comp_def, AccSrc.value, MatMember.supply] using hm
  have hlane : y.lane < 32 := by
    have hm : (y.lane, y.arr.b) ∈ (List.range 32).map (fun k => (k, (B k).map .val)) := hb ▸ List.mem_map.2 ⟨y, hy, rfl⟩
    obtain ⟨k, hk, he⟩ := List.mem_map.1 hm
    exact (Prod.mk.inj he).1 ▸ List.mem_range.1 hk
  rw [member_int hlead hta, hbt, ha]
  obtain ⟨hflags, hbad⟩ := y.receive_flags x.grp false false (z == 1#1) 0 _ (fun _ _ _ => productElement_int_flags hta tb.toNat none false _ _ _ _ _ _ _)
  refine ⟨_, List.mem_map.2 ⟨y, hy, rfl⟩, rfl, rfl, hflags, hbad, y.receive_regs_fst _ _ _ _ _ _, fun j i hj hi => ?_⟩
  have hplace : accPlace false y.lane j i = (y.lane % 16, y.lane / 16 * 8 + 2 * j + i) := by
    simp only [accPlace, Bool.false_eq_true, if_false, Nat.add_assoc]
  have hinput : (((if z == 1#1 then 0 else el 32 (y.arr.d.getD j (.val 0)).value i) : Nat) : Int) =
      if z = 1 then 0 else ((elem 32 (y.arr.d.getD j (.val 0)).value i).toNat : Int) := by
    by_cases hz : z = 1 <;> simp [hz, elem_toNat]
  refine ⟨_, y.receive_reg x.grp false _ 0 _ (by omega), ?_⟩
  rw [elem_destReg _ _ _ hi]
  refine ite_congr rfl (fun _ => ?_) (fun _ => rfl)
  rw [hplace, productElement_int hta htb A B false _ _ (by omega) (by omega), ofNat_wrap, hinput]
  rfl

end Sys2Proof.Machine
end

section

/-! ### Atomics on the scratchpad

ATOM (R49, R165 to R167): the combinations of integer types, what a near access that is performed at issue leaves in its threads, and the
old values that the lanes receive. -/

namespace Sys2Proof.Machine

/-! #### Combinations of integers (R166, R167) -/

section
variable {ty : Nat} (h : Fmt.ofCode ty = none) (x y d : Nat)
include h

theorem combine_add : combine 1 ty x y d = (x + y) % 2 ^ (8 * atomBytes ty) := by simp [combine, h]

theorem combine_min_natural (hs : intSigned ty = false) : combine 2 ty x y d = min x y := by
  simp only [combine, h, hs, Bool.false_eq_true, if_false, beq_self_eq_true, beq_iff_eq, decide_eq_true_eq]
  exact (min_def x y).symm

theorem combine_max_natural (hs : intSigned ty = false) : combine 3 ty x y d = max x y := by
  simp only [combine, h, hs, Bool.false_eq_true, if_false, show ((3 : Nat) == 2) = false from rfl, beq_false, Bool.not_eq_true', decide_eq_false_iff_not]
  rw [ite_not, max_def]

theorem combine_min_signed (hs : intSigned ty = true) : combine 2 ty x y d =
    if sgn (8 * atomBytes ty) x ≤ sgn (8 * atomBytes ty) y then x else y := by
  simp only [combine, h, hs, if_true, beq_self_eq_true, beq_iff_eq, decide_eq_true_eq]

theorem combine_max_signed (hs : intSigned ty = true) : combine 3 ty x y d =
    if sgn (8 * atomBytes ty) x ≤ sgn (8 * atomBytes ty) y then y else x := by
  simp only [combine, h, hs, if_true, show ((3 : Nat) == 2) = false from rfl, beq_false, Bool.not_eq_true', decide_eq_false_iff_not, ite_not]

end

/-- The integer types of ATOM combine as R166 says, signed ones by their signed values. -/
theorem integerCombine : Claims.IntegerCombine := by
  intro ty x y d hty n hx hy hd
  have hf : Fmt.ofCode ty = none := by fin_cases hty <;> rfl
  have hn : 0 < 8 * atomBytes ty := by fin_cases hty <;> decide
  have hsign : intSigned ty = decide (ty = 8 ∨ ty = 9) := by fin_cases hty <;> rfl
  refine ⟨fun _ => combine_add hf x y d, ?_, ?_, rfl, rfl, rfl, rfl, rfl⟩
  · split
    · next hs => rw [combine_min_signed hf x y d (by rw [hsign, decide_eq_true hs]), sgn_eq_toInt hn, sgn_eq_toInt hn]
    · next hs => rw [combine_min_natural hf x y d (by rw [hsign, decide_eq_false hs])]
  · split
    · next hs => rw [combine_max_signed hf x y d (by rw [hsign, decide_eq_true hs]), sgn_eq_toInt hn, sgn_eq_toInt hn]
    · next hs => rw [combine_max_natural hf x y d (by rw [hsign, decide_eq_false hs])]

/-! #### The thread of a near access that is performed at issue (R67) -/

/-- A near access whose values are known lands as writes of its registers. -/
theorem Thread.landAll_issueNear {th : Thread} (h : th.pend = []) (i : Instr) (t : Turn) (id la : Nat) (rs : List (Nat × Word)) (q : List Nat) :
    ({ th.issueNear i t (if (rs.map (fun e => (e.1, some e.2))).isEmpty then none else some (Pending.ofNear id la (rs.map (fun e => (e.1, some e.2)))))
      with acqs := q } : Thread).landAll =
      some (({ th.stepped t.len with acqs := q } : Thread).land (Pending.ofNear id la (rs.map (fun e => (e.1, some e.2))))) := by
  have hs : (th.cancel ((writeFields i).map th.ix) (writePreds i)).advance t.len = th.stepped t.len := Thread.cancel_advance_quiet h _ _ _
  have hp : (th.stepped t.len).pend = [] := h
  simp only [Thread.issueNear, hs]
  cases rs with
  | nil => exact Thread.landAll_quiet (th := { th.stepped t.len with acqs := q }) hp
  | cons e r =>
    have hk : (Pending.ofNear id la ((e :: r).map (fun e => (e.1, some e.2)))).known = true := by simp [Pending.known, Pending.ofNear, List.all_map]
    simp only [List.map_cons, List.isEmpty_cons, Bool.false_eq_true, if_false, hp, List.nil_append] at hk ⊢
    simp only [Thread.landAll, List.all_cons, List.all_nil, hk, Bool.and_true, if_true, List.foldl_cons, List.foldl_nil]

/-- A near access leaves everything of its thread but the registers that it writes, the PC and the position (R69, R83). -/
theorem Thread.advanced_near (th : Thread) (t : Turn) (id la : Nat) (rs : List (Nat × Word)) (q fs : List Nat)
    (hr : ∀ r ∈ rs.map (·.1), r ∈ fs.map th.ix) :
    let th' := ({ th.stepped t.len with acqs := q } : Thread).land (Pending.ofNear id la (rs.map (fun e => (e.1, some e.2))))
    Advanced fs [] t th th' ∧ SameFlags th th' := by
  intro th'
  obtain ⟨gs, po, ps, hl⟩ := Thread.land_frame { th.stepped t.len with acqs := q } (Pending.ofNear id la (rs.map (fun e => (e.1, some e.2))))
  have hl' : th' = _ := hl
  refine ⟨⟨by rw [hl']; rfl, by rw [hl']; rfl, by rw [hl']; rfl, by rw [hl']; rfl, by rw [hl']; rfl, by rw [hl']; rfl, by rw [hl']; rfl,
    by rw [hl']; rfl, fun r hnr => ?_, fun p _ => ?_⟩, by rw [hl']; rfl, by rw [hl']; rfl, by rw [hl']; rfl⟩
  · exact (Thread.land_reg _ _ r).trans (Thread.putRegs_other rs _ (fun hc => hnr (hr r hc)))
  · exact Thread.land_pred _ _ p

/-! #### States that differ in one core's scratchpad -/

/-- A state is another with one core's scratchpad replaced. -/
structure ScratchBecomes (s s1 : State) (core : Nat) (mem : Memory) : Prop where
  rest : { s1 with cores := s.cores } = s
  cores : ∀ c, c ≠ core → s1.core c = s.core c
  core : s1.core core = { s.core core with scratch := mem }

theorem ScratchBecomes.refl (s : State) (core : Nat) : ScratchBecomes s s core (s.core core).scratch := ⟨rfl, fun _ _ => rfl, rfl⟩

theorem ScratchBecomes.setNearMem (s : State) (core : Nat) (mem : Memory) : ScratchBecomes s (s.setNearMem (.scratch core) mem) core mem :=
  ⟨rfl, fun _ h => s.core_modCore_of_ne _ h, s.core_modCore_same _ _⟩

section
variable {s s1 : State} {core : Nat} {mem : Memory}

theorem ScratchBecomes.hours (h : ScratchBecomes s s1 core mem) : s1.hours = s.hours := by rw [← h.rest]

theorem ScratchBecomes.turn (h : ScratchBecomes s s1 core mem) : s1.turn = s.turn := by rw [← h.rest]

theorem ScratchBecomes.team (h : ScratchBecomes s s1 core mem) (c r : Nat) : s1.team c r = s.team c r := by
  by_cases hc : c = core
  · subst hc
    simp only [State.team, h.core]
  · simp only [State.team, h.cores c hc]

theorem ScratchBecomes.nearRead (h : ScratchBecomes s s1 core mem) (p n : Nat) : s1.nearRead (.scratch core) p n = mem.readLE p n := by
  simp only [State.nearRead, State.nearMem, h.core]

/-- With no poison about, a write to the scratchpad is one of its memory alone. -/
theorem ScratchBecomes.nearWrite (h : ScratchBecomes s s1 core mem) (hp : s.hours.poison = []) (p v n : Nat) :
    ScratchBecomes s (s1.nearWrite (.scratch core) p v n) core (mem.writeLE p v n) := by
  have hh : (s1.setNearMem (.scratch core) (mem.writeLE p v n)).hours.poison = [] := (congrArg Hours.poison h.hours).trans hp
  have he : s1.nearWrite (.scratch core) p v n = s1.setNearMem (.scratch core) (mem.writeLE p v n) := by
    simp only [State.nearWrite, State.beforeWrite, State.nearMem, h.core, hh, List.filter_nil]
    rw [← hh]
  rw [he]
  have hw := ScratchBecomes.setNearMem s1 core (mem.writeLE p v n)
  refine ⟨?_, fun c hc => (hw.cores c hc).trans (h.cores c hc), ?_⟩
  · have hrest := h.rest
    rwa [← hw.rest] at hrest
  · rw [hw.core, h.core]

/-- What touches only an issue set after the scratchpad has changed. -/
theorem ScratchBecomes.touches (h : ScratchBecomes s s1 core mem) {s' : State} {t : Turn} (ht : TouchesOnly s1 s' t) :
    TouchesOnly (s.setNearMem (.scratch core) mem) s' t := by
  have hw := ScratchBecomes.setNearMem s core mem
  have hcore : ∀ c, (s.setNearMem (.scratch core) mem).core c = s1.core c := by
    intro c
    by_cases hc : c = core
    · rw [hc, hw.core, h.core]
    · rw [hw.cores c hc, h.cores c hc]
  have hteam : ∀ c r, (s.setNearMem (.scratch core) mem).team c r = s1.team c r := fun c r => by rw [State.team, State.team, hcore]
  have hslot : (s.setNearMem (.scratch core) mem).slotOf t = s1.slotOf t := by rw [State.slotOf, State.slotOf, hteam]
  refine ⟨?_, fun c hc => ?_, ?_, fun k hk => ?_, fun r hr => ?_, fun m hm => ?_⟩
  · have h1 := congrArg (fun x : State => { x with cores := (s.setNearMem (.scratch core) mem).cores }) h.rest
    have h2 := congrArg (fun x : State => { x with cores := (s.setNearMem (.scratch core) mem).cores }) ht.rest
    rw [show (s.setNearMem (.scratch core) mem).turn = s1.turn from h.turn.symm]
    exact h2.trans h1
  · rw [hcore, ht.cores c hc]
  · rw [hcore]; exact ht.core
  · rw [hcore]; exact ht.busy k (hslot ▸ hk)
  · rw [hteam]; exact ht.teams r hr
  · rw [hteam] at hm; exact ht.team m hm

end

/-! #### The combination of the lanes (R49) -/

/-- What an entry of a set of atomics on one memory changes lies in its element. -/
theorem atomRun_sameBut (op ty : Nat) (mem : Memory) (es : List (Nat × Nat × Nat)) :
    SameBut mem (atomRun op ty mem es).1 (es.map (fun e => (e.1, atomBytes ty))) := by
  induction es generalizing mem with
  | nil => exact fun _ _ => rfl
  | cons e r ih =>
    obtain ⟨p, b, d⟩ := e
    intro x hx
    have hp := hx (p, atomBytes ty) List.mem_cons_self
    rw [atomRun, ih _ x (fun e he => hx e (List.mem_cons_of_mem _ he))]
    rcases hp with hp | hp
    · exact Memory.read_writeLE_of_lt mem hp
    · exact Memory.read_writeLE_of_ge mem hp

theorem atomRun_length (op ty : Nat) (mem : Memory) (es : List (Nat × Nat × Nat)) : (atomRun op ty mem es).2.length = es.length := by
  induction es generalizing mem with
  | nil => rfl
  | cons e r ih => exact congrArg Nat.succ (ih _)

/-! #### Operations performed at once (R161) -/

/-- One lane's operations performed, with the values that its registers receive. -/
def performLane (s : State) (l : LaneOps) : State × List (Nat × Word) :=
  l.ops.foldl (fun (a : State × List (Nat × Word)) o =>
    let v := a.1.performOp l.n.unit (l.n.place + o.1) o.2
    (v.1, a.2 ++ v.2.toList)) (s, [])

/-- One more lane performed. -/
def performStep (acc : State × List (Nat × List (Nat × Word))) (l : LaneOps) : State × List (Nat × List (Nat × Word)) :=
  ((performLane acc.1 l).1, acc.2 ++ [(l.n.c.lane, (performLane acc.1 l).2)])

theorem performNow_eq (s : State) (ls : List LaneOps) : performNow s ls = ls.foldl performStep (s, []) := rfl

theorem foldl_performStep (ls : List LaneOps) (s : State) (acc : List (Nat × List (Nat × Word))) :
    ls.foldl performStep (s, acc) = ((performNow s ls).1, acc ++ (performNow s ls).2) := by
  induction ls generalizing s acc with
  | nil => rw [performNow_eq, List.foldl_nil, List.foldl_nil, List.append_nil]
  | cons l r ih => rw [performNow_eq, List.foldl_cons, List.foldl_cons, performStep, performStep, ih, ih, List.append_assoc, List.nil_append]

/-- The first lane performs, and the others after it. -/
theorem performNow_cons (s : State) (l : LaneOps) (ls : List LaneOps) : performNow s (l :: ls) =
    ((performNow (performLane s l).1 ls).1, (l.n.c.lane, (performLane s l).2) :: (performNow (performLane s l).1 ls).2) := by
  rw [performNow_eq, List.foldl_cons, performStep, foldl_performStep]
  rfl

/-- A lane's ATOM on the scratchpad: the place that its address names, and its one operation. -/
def atomOps (core base : Nat) (addr : LaneCtx → Nat) (d b : BitVec 7) (fn : BitVec 2) (op ty : BitVec 4) (c : LaneCtx) : LaneOps :=
  { n := { c := c, addr := addr c, unit := .scratch core, place := base + addr c },
    ops := [(0, .atom op.toNat ty.toNat (c.th.rd b).toNat (c.th.rd d).toNat (if fn.toNat = 0 then some (c.th.ix d.toNat) else none))] }

/-- What a lane's registers receive from ATOM: the old value, unless the form returns none (R167). -/
def atomResult (d : BitVec 7) (fn : BitVec 2) (c : LaneCtx) (old : Nat) : List (Nat × Word) :=
  if fn.toNat = 0 then [(c.th.ix d.toNat, BitVec.ofNat 64 old)] else []

section
variable {s : State} {core base : Nat} {addr : LaneCtx → Nat} {d b : BitVec 7} {fn : BitVec 2} {op ty : BitVec 4}

theorem performOp_atom {s1 : State} {mem : Memory} (h : ScratchBecomes s s1 core mem) (hp : s.hours.poison = []) (p x y : Nat) (r : Option Nat) :
    ScratchBecomes s (s1.performOp (.scratch core) p (.atom op.toNat ty.toNat x y r)).1 core
        (mem.writeLE p (combine op.toNat ty.toNat (mem.readLE p (atomBytes ty.toNat)) (x % 256 ^ atomBytes ty.toNat) (y % 256 ^ atomBytes ty.toNat))
          (atomBytes ty.toNat)) ∧
      (s1.performOp (.scratch core) p (.atom op.toNat ty.toNat x y r)).2 =
        r.map (fun r => (r, BitVec.ofNat 64 (mem.readLE p (atomBytes ty.toNat)))) := by
  have hw : (256 : Nat) ^ atomBytes ty.toNat = 2 ^ (8 * atomBytes ty.toNat) := by rw [Nat.pow_mul]
  rw [hw]
  simp only [State.performOp, h.nearRead, and_true]
  exact h.nearWrite hp _ _ _

/-- Performing the lanes' operations at once is the run of R49, and each lane receives the old value that it found. -/
theorem performNow_atoms (hp : s.hours.poison = []) (L : List LaneCtx) {s1 : State} {mem : Memory} (h : ScratchBecomes s s1 core mem) :
    let run := atomRun op.toNat ty.toNat mem (L.map (fun c => (base + addr c, (c.th.rd b).toNat, (c.th.rd d).toNat)))
    let r := performNow s1 (L.map (atomOps core base addr d b fn op ty))
    ScratchBecomes s r.1 core run.1 ∧ r.2 = List.zipWith (fun c old => (c.lane, atomResult d fn c old)) L run.2 := by
  induction L generalizing s1 mem with
  | nil => exact ⟨h, rfl⟩
  | cons c L ih =>
    obtain ⟨hs, hv⟩ := performOp_atom (op := op) (ty := ty) h hp (base + addr c) (c.th.rd b).toNat (c.th.rd d).toNat
      (if fn.toNat = 0 then some (c.th.ix d.toNat) else none)
    obtain ⟨h1, h2⟩ := ih hs
    have hlane : (performLane s1 (atomOps core base addr d b fn op ty c)).2 =
        atomResult d fn c (mem.readLE (base + addr c) (atomBytes ty.toNat)) := by
      change [] ++ (s1.performOp (.scratch core) (base + addr c) _).2.toList = _
      rw [hv, atomResult]
      split <;> rfl
    intro run r
    have hr : r = _ := performNow_cons s1 (atomOps core base addr d b fn op ty c) (L.map (atomOps core base addr d b fn op ty))
    rw [hr, hlane]
    exact ⟨h1, congrArg _ h2⟩

/-- The old value of the lane at a position of the run. -/
theorem find_zipWith_lane (f : LaneCtx → Nat → List (Nat × Word)) {L : List LaneCtx} (hn : (L.map (·.lane)).Nodup) {olds : List Nat} {k : Nat}
    {c : LaneCtx} {old : Nat} (hc : L[k]? = some c) (ho : olds[k]? = some old) :
    (List.zipWith (fun c old => (c.lane, f c old)) L olds).find? (·.1 = c.lane) = some (c.lane, f c old) := by
  induction L generalizing olds k with
  | nil => simp at hc
  | cons x L ih =>
    cases olds with
    | nil => simp at ho
    | cons y olds =>
      rw [List.map_cons, List.nodup_cons] at hn
      rw [List.zipWith_cons_cons, List.find?_cons]
      cases k with
      | zero =>
        obtain rfl : x = c := by simpa using hc
        obtain rfl : y = old := by simpa using ho
        simp
      | succ k =>
        have hne : x.lane ≠ c.lane := fun he => hn.1 (he ▸ List.mem_map.2 ⟨c, List.mem_of_getElem? hc, rfl⟩)
        simp only [hne, decide_false]
        exact ih hn.2 hc ho

end

/-! #### An access to the own scratchpad that issues (R155, R157, R162) -/

theorem actingLanes_lane_nodup {t : Turn} (g : Group) (h : t.lanes.Nodup) : ((actingLanes t g).map (·.lane)).Nodup :=
  (issueLanes_nodup g h).sublist (List.filter_sublist.map _)

theorem mem_actingLanes {t : Turn} {g : Group} {c : LaneCtx} : c ∈ actingLanes t g ↔ c ∈ issueLanes t g ∧ c.m.guard.getLsbD 0 = true :=
  List.mem_filter

/-- With every lane past its probe, the access goes on with all of them. -/
theorem probeAll_ok (s : State) (is : Issue) (L : List LaneCtx) (a : LaneCtx → Nat) (u : LaneCtx → NearUnit × Nat)
    (body : State → List NearLane → Access) : probeAll s is (L.map (fun c => (c, a c, .ok (u c)))) body =
      (body s (L.map (fun c => { c := c, addr := a c, unit := (u c).1, place := (u c).2 }))).outcome s is.t.core := by
  simp only [probeAll, List.filterMap_map, Function.comp_def, List.filterMap_none, List.filterMap_eq_map']

/-- An aligned access within the team's scratchpad passes its probe (R154, R155). -/
theorem probeLane_scratch (s : State) (core : Nat) (m : Team) (size : Nat) (write : Bool) {a : Nat} (hal : a % size = 0)
    (hin : a + size ≤ m.env.scratchSize) :
    probeLane s core m { space := .scratch, size := size, write := write } a = .ok (.scratch core, m.env.scratchBase + a) := by
  simp [probeLane, nearLocate, hin, hal]

/-- A lane with no access outstanding has none at its own core's ports. -/
theorem peerReqs_of_not_outstanding {s : State} {core tr grp lane : Nat} (h : s.outstanding core tr grp lane = false) {q : NearReq}
    (hq : q ∈ (s.core core).peerReqs) (hc : q.core = core) (ht : q.tr = tr) (hg : q.grp = grp) : ∀ e ∈ q.lanes, e.1 ≠ lane := by
  intro e he hl
  have hcore : dieOf core * Config.coresPerDie + core % Config.coresPerDie = core := by
    rw [dieOf, Nat.mul_comm]
    exact Nat.div_add_mod core Config.coresPerDie
  have hopen : (q.pend, e.2.1, e.2.2) ∈ s.openNear core tr grp lane := by
    refine List.mem_append_right _ (List.mem_flatMap.2 ⟨core % Config.coresPerDie, List.mem_range.2 (Nat.mod_lt _ (by decide)), ?_⟩)
    rw [hcore]
    refine List.mem_flatMap.2 ⟨q, hq, ?_⟩
    rw [if_pos (by simp [hc, ht, hg])]
    exact List.mem_map.2 ⟨e, List.mem_filter.2 ⟨he, by simpa using hl⟩, rfl⟩
  rw [State.outstanding, Bool.not_eq_false', List.isEmpty_iff] at h
  rw [h] at hopen
  exact absurd hopen List.not_mem_nil

theorem releaseWaits_of_not_outstanding {s : State} {is : Issue} {ls : List LaneCtx}
    (h : ∀ c ∈ ls, s.outstanding is.t.core is.t.tr is.t.grp c.lane = false) : releaseWaits s is ls = false := by
  rw [releaseWaits, List.any_eq_false]
  intro c hc
  rw [h c hc]
  simp

theorem ownScratchWaits_of_not_outstanding {s : State} {is : Issue} {ls : List LaneOps}
    (h : ∀ l ∈ ls, s.outstanding is.t.core is.t.tr is.t.grp l.n.c.lane = false) : ownScratchWaits s is ls = false := by
  rw [ownScratchWaits, List.any_eq_false]
  intro l hl
  split
  · next c _ =>
    rw [Bool.and_eq_true, List.any_eq_true]
    rintro ⟨hc, q, hq, hm⟩
    simp only [Bool.and_eq_true, beq_iff_eq, List.any_eq_true, decide_eq_true_eq] at hc hm
    obtain ⟨⟨⟨⟨hqc, hqt⟩, hqg⟩, _⟩, e, he, hel⟩ := hm
    exact peerReqs_of_not_outstanding (h l hl) (hc ▸ hq) hqc hqt hqg e he hel
  · exact Bool.false_ne_true

theorem poisonRead_of_none {s : State} (h : s.hours.poison = []) (ls : List LaneOps) : poisonRead s ls = none := by
  have hp : ∀ u p n, s.nearPoison u p n = none := fun u p n => by simp [State.nearPoison, h]
  simp only [poisonRead, hp, Option.map_none, ite_self, List.findSome?_eq_none_iff, implies_true]

/-- An access of single operations to the own scratchpad, of lanes with none outstanding, is performed at issue. -/
theorem nearAccess_scratch {i : Instr} {s : State} {is : Issue} (la cost : Nat) {ls : List LaneOps} (hp : s.hours.poison = [])
    (hout : ∀ l ∈ ls, s.outstanding is.t.core is.t.tr is.t.grp l.n.c.lane = false) (hone : ∀ l ∈ ls, l.ops.drop 1 = []) :
    nearAccess i s is .scratch la cost false false ls = .goes (.next (complete (performNow s ls).1 is.t (nearThreads is i s.tick la (fun l =>
      (ls.find? (fun x => x.n.c.lane = l)).map (·.received (performNow s ls).2))) cost)) := by
  have hup : upperHalves s is ls = [] := by
    have hnil : (ls.map (fun l => { l with ops := l.ops.drop 1 })).filter (fun l => !l.ops.isEmpty) = [] := by
      rw [List.filter_eq_nil_iff]
      intro l hl
      obtain ⟨x, hx, rfl⟩ := List.mem_map.1 hl
      simp [hone x hx]
    rw [upperHalves, hnil]
    rfl
  have hrel : releaseWaits s is (ls.map (·.n.c)) = false := releaseWaits_of_not_outstanding (fun c hc => by
    obtain ⟨l, hl, rfl⟩ := List.mem_map.1 hc
    exact hout l hl)
  have hc : (NearSpace.scratch == NearSpace.tile) = false := rfl
  simp only [nearAccess, hrel, hc, ownScratchWaits_of_not_outstanding hout, hup, nearImmediate, poisonRead_of_none hp, Bool.and_false, Bool.false_and,
    Bool.false_eq_true, if_false, List.isEmpty_nil, if_true]
  rfl

/-- ATOM on the scratchpad, in lanes whose probes pass and that have nothing outstanding, performs its operations at issue. -/
theorem execAtom_scratch {d a b : BitVec 7} {l : BitVec 4} {fn : BitVec 2} {op ty : BitVec 4} {o : BitVec 6} {s : State} {t : Turn} {m : Team}
    {g : Group} (hr : Ready (.atom d a b l fn 0 op ty o) s t m g) (hp : s.hours.poison = [])
    (hout : ∀ c ∈ actingLanes t g, s.outstanding t.core t.tr t.grp c.lane = false) (addr : LaneCtx → Nat)
    (haddr : addr = fun c => (c.th.rd a + memOffset t.pfx o (atomBytes ty.toNat)).toNat)
    (hin : ∀ c ∈ actingLanes t g, addr c % atomBytes ty.toNat = 0 ∧ addr c + atomBytes ty.toNat ≤ m.env.scratchSize) :
    let ls := (actingLanes t g).map (atomOps t.core m.env.scratchBase addr d b fn op ty)
    ∃ cost, exec (.atom d a b l fn 0 op ty o) s = .next (complete (performNow s ls).1 t
      (nearThreads { t := t, team := m, grp := g, lanes := issueLanes t g } (.atom d a b l fn 0 op ty o) s.tick l.toNat (fun l =>
        (ls.find? (fun x => x.n.c.lane = l)).map (·.received (performNow s ls).2))) cost) := by
  intro ls
  let is : Issue := { t := t, team := m, grp := g, lanes := issueLanes t g }
  let ok : List NearLane := (actingLanes t g).map (fun c => { c := c, addr := addr c, unit := .scratch t.core, place := m.env.scratchBase + addr c })
  have hprobe : ∀ body, probeAll s is ((actingLanes t g).map (fun c => (c, addr c,
      probeLane s t.core m { space := .scratch, size := atomBytes ty.toNat, write := true } (addr c)))) body = (body s ok).outcome s t.core := by
    intro body
    rw [List.map_congr_left (fun c hc => by rw [probeLane_scratch s t.core m _ true (hin c hc).1 (hin c hc).2])]
    exact probeAll_ok s is (actingLanes t g) addr (fun c => (.scratch t.core, m.env.scratchBase + addr c)) body
  have hls : ok.map (fun n => ({ n := n, ops := [(0, .atom op.toNat ty.toNat (n.c.th.rd b).toNat (n.c.th.rd d).toNat
      (if fn.toNat = 0 then some (n.c.th.ix d.toNat) else none))] } : LaneOps)) = ls := List.map_map
  have hlane : ∀ x ∈ ls, s.outstanding t.core t.tr t.grp x.n.c.lane = false ∧ x.ops.drop 1 = [] := by
    intro x hx
    obtain ⟨c, hc, rfl⟩ := List.mem_map.1 hx
    exact ⟨hout c hc, rfl⟩
  have hgo := nearAccess_scratch (i := .atom d a b l fn 0 op ty o) (is := is) l.toNat (nearCost .scratch true true (atomBytes ty.toNat) ok) hp
    (fun x hx => (hlane x hx).1) (fun x hx => (hlane x hx).2)
  rw [← hls] at hgo
  refine ⟨nearCost .scratch true true (atomBytes ty.toNat) ok, ?_⟩
  change execAtom d a b l fn 0 op ty o s = _
  rw [execAtom, issue_ready hr, ← hls]
  subst haddr
  exact (hprobe _).trans (congrArg (fun x : Access => x.outcome s t.core) hgo)

/-! #### The lanes after it -/

/-- The thread of a lane after a near access. -/
def nearThread (i : Instr) (t : Turn) (id la : Nat) (vals : Nat → Option (List (Nat × Option Word))) (c : LaneCtx) : Thread :=
  let th := c.th.issueNear i t ((vals c.lane).bind (fun rs => if rs.isEmpty then none else some (Pending.ofNear id la rs)))
  if acquirable i && c.acquires && (vals c.lane).isSome then { th with acqs := th.acqs ++ [id] } else th

theorem nearThreads_eq (is : Issue) (i : Instr) (id la : Nat) (vals : Nat → Option (List (Nat × Option Word))) :
    nearThreads is i id la vals = is.lanes.map (fun c => (c.lane, nearThread i is.t id la vals c)) :=
  rfl

/-- A near access whose values are known lands in its registers. -/
theorem landAll_nearThread {c : LaneCtx} (hq : c.th.pend = []) (i : Instr) (t : Turn) (id la : Nat)
    (vals : Nat → Option (List (Nat × Option Word))) (rs : List (Nat × Word)) (hv : (vals c.lane).getD [] = rs.map (fun e => (e.1, some e.2))) :
    ∃ q, (nearThread i t id la vals c).landAll =
      some (({ c.th.stepped t.len with acqs := q } : Thread).land (Pending.ofNear id la (rs.map (fun e => (e.1, some e.2))))) := by
  have hb : (vals c.lane).bind (fun rs => if rs.isEmpty then none else some (Pending.ofNear id la rs)) =
      if (rs.map (fun e => (e.1, some e.2))).isEmpty then none else some (Pending.ofNear id la (rs.map (fun e => (e.1, some e.2)))) := by
    rw [← hv]
    cases vals c.lane <;> rfl
  rw [nearThread, hb]
  dsimp only
  split
  · exact ⟨_, Thread.landAll_issueNear hq i t id la rs _⟩
  · exact ⟨_, Thread.landAll_issueNear hq i t id la rs _⟩

theorem find_lane {L : List LaneCtx} (hn : (L.map (·.lane)).Nodup) {c : LaneCtx} (hc : c ∈ L) : L.find? (fun x => x.lane = c.lane) = some c := by
  cases hf : L.find? (fun x => x.lane = c.lane) with
  | none => exact absurd (List.find?_eq_none.1 hf c hc) (by simp)
  | some x =>
    have hx : x.lane = c.lane := by simpa using List.find?_some hf
    rw [List.inj_on_of_nodup_map hn (List.mem_of_find?_eq_some hf) hc hx]

section
variable {core base : Nat} {addr : LaneCtx → Nat} {d b : BitVec 7} {fn : BitVec 2} {op ty : BitVec 4}

/-- An acting lane receives the old value of its place in the run. -/
theorem received_atom {L : List LaneCtx} (hn : (L.map (·.lane)).Nodup) {olds : List Nat} {k : Nat} {c : LaneCtx} {old : Nat}
    (hc : L[k]? = some c) (ho : olds[k]? = some old) :
    ((L.map (atomOps core base addr d b fn op ty)).find? (fun x => x.n.c.lane = c.lane)).map
      (·.received (List.zipWith (fun c old => (c.lane, atomResult d fn c old)) L olds)) =
      some ((atomResult d fn c old).map (fun e => (e.1, some e.2))) := by
  rw [List.find?_map]
  change Option.map _ (Option.map _ (L.find? (fun x => x.lane = c.lane))) = _
  rw [find_lane hn (List.mem_of_getElem? hc), Option.map_some, Option.map_some]
  have hf : (List.zipWith (fun c old => (c.lane, atomResult d fn c old)) L olds).find?
      (·.1 = (atomOps core base addr d b fn op ty c).n.c.lane) = some (c.lane, atomResult d fn c old) :=
    find_zipWith_lane (atomResult d fn) hn hc ho
  refine congrArg some ?_
  rw [LaneOps.received, hf]
  by_cases h0 : fn.toNat = 0 <;> simp [LaneOps.regs, atomOps, atomResult, h0]

/-- A lane that does not act receives nothing. -/
theorem received_none {L : List LaneCtx} {c : LaneCtx} (hc : ∀ x ∈ L, x.lane ≠ c.lane) (r : List (Nat × List (Nat × Word))) :
    ((L.map (atomOps core base addr d b fn op ty)).find? (fun x => x.n.c.lane = c.lane)).map (·.received r) = none := by
  rw [Option.map_eq_none_iff, List.find?_eq_none]
  intro x hx
  obtain ⟨y, hy, rfl⟩ := List.mem_map.1 hx
  exact fun he => hc y hy (of_decide_eq_true he)

end

/-- What the registers of a lane of an ATOM on the scratchpad receive, from the old values of the run (R49, R167). -/
structure AtomReceives (t : Turn) (g : Group) (d : BitVec 7) (fn : BitVec 2) (olds : List Nat) (c : LaneCtx) (rs : List (Nat × Word)) : Prop where
  form : rs = [] ∨ ∃ old, rs = atomResult d fn c old
  idle : c.m.guard.getLsbD 0 = false → rs = []
  acts : ∀ (k old : Nat), (actingLanes t g)[k]? = some c → olds[k]? = some old → rs = atomResult d fn c old

/-- Each lane of the issue set receives what the run gives it. -/
theorem atomReceives (core base : Nat) (addr : LaneCtx → Nat) (d b : BitVec 7) (fn : BitVec 2) (op ty : BitVec 4) {t : Turn} {g : Group}
    (hn : t.lanes.Nodup) {olds : List Nat} (hlen : olds.length = (actingLanes t g).length) {c : LaneCtx} (hc : c ∈ issueLanes t g) :
    ∃ rs, ((((actingLanes t g).map (atomOps core base addr d b fn op ty)).find? (fun x => x.n.c.lane = c.lane)).map
        (·.received (List.zipWith (fun c old => (c.lane, atomResult d fn c old)) (actingLanes t g) olds))).getD [] =
        rs.map (fun e => (e.1, some e.2)) ∧ AtomReceives t g d fn olds c rs := by
  have hln := actingLanes_lane_nodup g hn
  by_cases hg : c.m.guard.getLsbD 0 = true
  · obtain ⟨k, hk, hkc⟩ := List.getElem_of_mem (mem_actingLanes.2 ⟨hc, hg⟩)
    have hkc' : (actingLanes t g)[k]? = some c := by rw [List.getElem?_eq_getElem hk, hkc]
    have hko : olds[k]? = some olds[k] := List.getElem?_eq_getElem (hlen ▸ hk)
    refine ⟨_, by rw [received_atom hln hkc' hko]; rfl, .inr ⟨_, rfl⟩, fun h => absurd (hg.symm.trans h) (by decide), fun j old hj ho => ?_⟩
    have hjk : k = j := (List.getElem?_inj hk (List.Nodup.of_map _ hln)).1 (hkc'.trans hj.symm)
    subst hjk
    rw [Option.some.inj (hko.symm.trans ho)]
  · have hne : ∀ x ∈ actingLanes t g, x.lane ≠ c.lane := fun x hx he =>
      hg (List.inj_on_of_nodup_map (issueLanes_nodup g hn) (mem_actingLanes.1 hx).1 hc he ▸ (mem_actingLanes.1 hx).2)
    refine ⟨[], by rw [received_none hne]; rfl, .inl rfl, fun _ => rfl, fun k old hk _ => ?_⟩
    exact absurd rfl (hne c (List.mem_of_getElem? hk))

/-- The scratchpad is no part of what makes an instruction ready. -/
theorem ScratchBecomes.ready {i : Instr} {s s1 : State} {core : Nat} {mem : Memory} {t : Turn} {m : Team} {g : Group}
    (h : ScratchBecomes s s1 core mem) (hr : Ready i s t m g) : Ready i s1 t m g :=
  { hr with turn := h.turn.trans hr.turn, team := (h.team _ _).trans hr.team }

/-- What a lane receives by the form of the instruction goes to D, or nowhere. -/
theorem AtomReceives.fields {t : Turn} {g : Group} {d : BitVec 7} {fn : BitVec 2} {olds : List Nat} {c : LaneCtx} {rs : List (Nat × Word)}
    (h : AtomReceives t g d fn olds c rs) : ∀ r ∈ rs.map (·.1), r ∈ (if fn = 0 then [d.toNat] else []).map c.th.ix := by
  have hz : fn.toNat = 0 ↔ fn = 0 := BitVec.toNat_inj (y := 0)
  rcases h.form with rfl | ⟨old, rfl⟩
  · exact fun r hr => absurd hr List.not_mem_nil
  · rw [atomResult]
    by_cases h0 : fn = 0 <;> simp [hz, h0]

/-- The register that a near access of one value writes. -/
theorem Thread.reg_land_near (th : Thread) (id la r : Nat) (v : Word) :
    (th.land (Pending.ofNear id la ([(r, v)].map (fun e => (e.1, some e.2))))).reg r = v :=
  (Thread.land_reg th _ r).trans (Thread.reg_setReg_same th r v)

/-- ATOM on the scratchpad combines lane by lane, ascending, and gives each lane the value that it found (R49, R167). -/
theorem scratchAtomic : Claims.ScratchAtomic := by
  intro d a b l fn op ty o s t m g i n place run hwf hr hp hout hin
  let addr := fun (c : LaneCtx) => (c.th.rd a + memOffset t.pfx o n).toNat
  let vals : Nat → Option (List (Nat × Option Word)) := fun l =>
    (((actingLanes t g).map (atomOps t.core m.env.scratchBase addr d b fn op ty)).find? (fun x => x.n.c.lane = l)).map
      (·.received (List.zipWith (fun c old => (c.lane, atomResult d fn c old)) (actingLanes t g) run.2))
  have hin' : ∀ c ∈ actingLanes t g, addr c % n = 0 ∧ addr c + n ≤ m.env.scratchSize := by
    intro c hc
    obtain ⟨hal, hsz⟩ := hin c hc
    rw [Nat.add_sub_cancel_left] at hal
    refine ⟨hal, ?_⟩
    simp only [place] at hsz
    simp only [addr]
    omega
  obtain ⟨cost, he⟩ := execAtom_scratch hr hp hout addr rfl hin'
  obtain ⟨hs, hv⟩ := performNow_atoms (base := m.env.scratchBase) (addr := addr) (d := d) (b := b) (fn := fn) (op := op) (ty := ty) hp
    (actingLanes t g) (ScratchBecomes.refl s t.core)
  rw [nearThreads_eq, hv] at he
  refine ⟨_, he, hs.touches (touches_complete _ _ _ _ ?_), ?_, fun c hc => ?_⟩
  · intro e hx
    obtain ⟨c, hc, rfl⟩ := List.mem_map.1 hx
    exact (mem_issueLanes.1 hc).1
  · have hb := atomRun_sameBut op.toNat ty.toNat (s.core t.core).scratch ((actingLanes t g).map (fun c => (place c, (c.th.rd b).toNat, (c.th.rd d).toNat)))
    rwa [List.map_map] at hb
  · have hlen : run.2.length = (actingLanes t g).length := (atomRun_length op.toNat ty.toNat _ _).trans (List.length_map _)
    obtain ⟨rs, hrs, hrec⟩ := atomReceives t.core m.env.scratchBase addr d b fn op ty hr.nodup hlen hc
    obtain ⟨q, hland⟩ := landAll_nearThread (hr.quiet c hc).1 i t s.tick l.toNat vals rs hrs
    obtain ⟨hadv, hflags⟩ := c.th.advanced_near t s.tick l.toNat rs q _ hrec.fields
    refine ⟨_, ⟨_, threadAt_complete (hs.ready hr) _ cost hc, hland⟩, hadv, hflags, fun hg => ?_, fun k old hk ho hf => ?_⟩
    · rw [hrec.idle hg]
      exact Thread.land_reg _ _ _
    · have h0 : fn.toNat = 0 := by rw [hf]; rfl
      rw [hrec.acts k old hk ho, atomResult, if_pos h0]
      exact Thread.reg_land_near _ _ _ _ _

/-- Settles O48: the lanes' operations performed at issue are the run of R49 on the scratchpad, and integers combine as R166 says. -/
theorem atomics : Obligations.Atomics := by
  unfold Obligations.Atomics
  exact ⟨scratchAtomic, integerCombine⟩

end Sys2Proof.Machine
end

section

/-! ### Words and instructions

Encoding and decoding (R55 to R61, R72 to R74). A word is a concatenation of fields, so both directions come down to two facts: what a
field of a concatenation is, and that a concatenation is a given word exactly when each part is the field that stands there. -/

namespace Sys2Proof

/-! #### Fields of a concatenation

The parts of a word have widths that add up to closed sums such as `5 + 7 + 20`, while the word's type says 32: the marks `no_index` let
`simp` find these rules all the same. -/

theorem fld_append_high {m n lo len : Nat} (x : BitVec m) (y : BitVec n) (h : n ≤ lo) :
    BitVec.extractLsb' lo len (no_index (x ++ y)) = x.extractLsb' (lo - n) len :=
  BitVec.extractLsb'_append_eq_of_le h

theorem fld_append_low {m n lo len : Nat} (x : BitVec m) (y : BitVec n) (h : lo + len ≤ n) :
    BitVec.extractLsb' lo len (no_index (x ++ y)) = y.extractLsb' lo len :=
  BitVec.extractLsb'_append_eq_of_add_le h

theorem append_eq_iff {m n : Nat} (x : BitVec m) (y : BitVec n) (w : BitVec (m + n)) :
    @Eq (no_index (BitVec (m + n))) (no_index (x ++ y)) w ↔ x = w.extractLsb' n m ∧ y = w.extractLsb' 0 n := by
  constructor
  · rintro rfl
    exact ⟨BitVec.extractLsb'_append_eq_left.symm, BitVec.extractLsb'_append_eq_right.symm⟩
  · rintro ⟨rfl, rfl⟩
    exact BitVec.extractLsb'_append_extractLsb'

/-- A part of a field is a field. -/
theorem fld_extractLsb' {n a b c d : Nat} (w : BitVec n) (h : c + d ≤ b) :
    (w.extractLsb' a b).extractLsb' c d = w.extractLsb' (a + c) d := by
  ext i hi
  simp only [BitVec.getElem_extractLsb', BitVec.getLsbD_extractLsb', Nat.add_assoc, Bool.and_eq_right_iff_imp, decide_eq_true_eq]
  omega

theorem bitVec2_cases (x : BitVec 2) : x = 0#2 ∨ x = 1#2 ∨ x = 2#2 ∨ x = 3#2 := by decide +revert

/-! #### Which instructions have words, and how many (R58) -/

theorem Instr.wf_iff {i : Instr} : i.wf = true ↔
    i.isEvent = false ∧ i.wordCodeOk = true ∧ i.descCodeOk = true ∧ i.fieldOk = true := by
  simp [Instr.wf, and_assoc]

theorem encode_of_isEvent {i : Instr} (he : i.isEvent = true) : encode i = [] := by
  cases i <;> cases he <;> rfl

theorem isEvent_of_encode_eq_cons {i : Instr} {w : IWord} {ws : List IWord} (h : encode i = w :: ws) : i.isEvent = false :=
  Bool.eq_false_iff.2 (fun he => by simp [encode_of_isEvent he] at h)

theorem length_encode {i : Instr} (he : i.isEvent = false) : (encode i).length = i.words := by
  cases i <;> cases he <;> rfl

/-- The number of words that an instruction is written with says whether it is a pair. -/
theorem encode_eq_ite_isPair {i : Instr} {w v : IWord} (h : encode i = [w] ∨ encode i = [w, v]) :
    encode i = if i.isPair then [w, v] else [w] := by
  have hl : (encode i).length = i.words := length_encode (h.elim isEvent_of_encode_eq_cons isEvent_of_encode_eq_cons)
  rw [Instr.words] at hl
  rcases h with h | h <;> cases hp : i.isPair <;> simp [h, hp] at hl ⊢

/-! #### What the decoder accepts, by what the table's row gives (R60, R61) -/

theorem decodeWords_eq_ok_iff {w v : IWord} {i : Instr} : decodeWords w v = .ok i ↔
    ∃ r, rawDecode w v = some r ∧ r.instr = i ∧ r.zeros = true ∧ r.codes = true ∧ (i.isPair = true → fld v 27 5 = 0x1D#5) ∧
      i.wordCodeOk = true ∧ i.descCodeOk = true ∧ i.fieldOk = true := by
  unfold decodeWords
  cases h : rawDecode w v with
  | none => simp
  | some r =>
    simp only [Option.some.injEq, exists_eq_left']
    split_ifs <;> grind

/-- The major of a `Pfx` word starts no instruction (R72). -/
theorem fld_major_ne_of_rawDecode {w v : IWord} {r : RawInstr} (h : rawDecode w v = some r) : fld w 27 5 ≠ 2#5 := by
  intro hm
  simp [rawDecode, hm] at h

/-! #### The decoder reads an instruction's words back

Row by row of the opcode table, in its order: MAJ and the function code of the word, computed by the rules above, select the row's own arm,
and each operand is read from where the encoder put it. -/

theorem rawDecode_encode_integer {i : Instr} (h : decide (i.ctorIdx < (Instr.fadd 0 0 0 0).ctorIdx) = true) :
    rawDecode ((encode i).getD 0 0) ((encode i).getD 1 0) = some ⟨i, true, true⟩ := by
  cases i <;> cases h <;> unfold encode <;>
    simp only [rawDecode, rawTrl, rawInt, rawInt2, rawAddi, rawLogi, rawShi, rawCmpi, rawLui, List.getD_cons_zero,
      fld_append_high, fld_append_low, Nat.reduceSub, Nat.reduceAdd, Nat.reduceLeDiff, BitVec.extractLsb'_eq_self, BitVec.reduceExtractLsb',
      beq_self_eq_true, Bool.and_self]
  all_goals rfl

/-- VOTE is the one row whose arm an operand selects: KIND 3, which is reserved, would be the ballot's. -/
theorem rawDecode_encode_float_lanes_matrix {i : Instr} (hk : i.wordCodeOk = true)
    (h : decide ((Instr.fadd 0 0 0 0).ctorIdx ≤ i.ctorIdx ∧ i.ctorIdx < (Instr.lds 0 0 0 0 0).ctorIdx) = true) :
    rawDecode ((encode i).getD 0 0) ((encode i).getD 1 0) = some ⟨i, true, true⟩ := by
  cases i <;> cases h <;> unfold encode <;>
    simp only [rawDecode, rawFpa, rawFpc, rawCvt, rawSfu, rawXl, rawMcon, List.getD_cons_zero, List.getD_cons_succ,
      fld_append_high, fld_append_low, Nat.reduceSub, Nat.reduceAdd, Nat.reduceLeDiff, BitVec.extractLsb'_eq_self, BitVec.reduceExtractLsb',
      beq_self_eq_true, Bool.and_self]
  case vote d a k l =>
    have hk3 : k = 3#2 → False := fun h => by simp [Instr.wordCodeOk, h] at hk
    simp -- takes the arm of VOTE, for `hk3` excludes the other
  all_goals rfl

theorem rawDecode_encode_memory_sync_control {i : Instr} (he : i.isEvent = false)
    (h : decide ((Instr.lds 0 0 0 0 0).ctorIdx ≤ i.ctorIdx) = true) :
    rawDecode ((encode i).getD 0 0) ((encode i).getD 1 0) = some ⟨i, true, true⟩ := by
  cases i <;> cases h <;> cases he <;> unfold encode <;>
    simp only [rawDecode, rawLds, rawLdt, rawLdc, rawLdx, rawSt, rawSync, rawCmd, rawBr, rawCtl, List.getD_cons_zero, List.getD_cons_succ,
      fld_append_high, fld_append_low, Nat.reduceSub, Nat.reduceAdd, Nat.reduceLeDiff, BitVec.extractLsb'_eq_self, BitVec.reduceExtractLsb',
      beq_self_eq_true, Bool.and_self]
  all_goals rfl

theorem rawDecode_encode {i : Instr} (he : i.isEvent = false) (hk : i.wordCodeOk = true) :
    rawDecode ((encode i).getD 0 0) ((encode i).getD 1 0) = some ⟨i, true, true⟩ := by
  rcases Nat.lt_or_ge i.ctorIdx (Instr.fadd 0 0 0 0).ctorIdx with hlt | hge
  · exact rawDecode_encode_integer (decide_eq_true hlt)
  · rcases Nat.lt_or_ge i.ctorIdx (Instr.lds 0 0 0 0 0).ctorIdx with hlt | hge'
    · exact rawDecode_encode_float_lanes_matrix hk (decide_eq_true ⟨hge, hlt⟩)
    · exact rawDecode_encode_memory_sync_control he (decide_eq_true hge')

theorem fld_tag_encode {i : Instr} (hp : i.isPair = true) : fld ((encode i).getD 1 0) 27 5 = 0x1D#5 := by
  cases i <;> cases hp
  all_goals
    unfold encode
    simp [fld_append_high]

theorem decodeWords_encode {i : Instr} (h : i.wf = true) : decodeWords ((encode i).getD 0 0) ((encode i).getD 1 0) = .ok i := by
  obtain ⟨he, hk, hd, hf⟩ := Instr.wf_iff.1 h
  exact decodeWords_eq_ok_iff.2 ⟨_, rawDecode_encode he hk, rfl, rfl, rfl, fld_tag_encode, hk, hd, hf⟩

/-! #### Fetching it, alone and after a `Pfx` (R72 to R74) -/

@[simp] theorem fld_major_encodePfx (p : Pfx) : fld (encodePfx p) 27 5 = 2#5 := by
  cases p <;> simp [encodePfx, fld_append_high]

@[simp] theorem decodePfx_encodePfx (p : Pfx) : decodePfx (encodePfx p) = (p, true) := by
  cases p <;> simp [decodePfx, encodePfx, fld_append_high, fld_append_low]

theorem decodeFetch_of_ok {w v x : IWord} {i : Instr} (h : decodeWords w v = .ok i) : decodeFetch w v x = .ok ⟨none, i, i.words⟩ := by
  obtain ⟨r, hr, -⟩ := decodeWords_eq_ok_iff.1 h
  simp [decodeFetch, fld_major_ne_of_rawDecode hr, h]

theorem decodeFetch_encodePfx {p : Pfx} {w v : IWord} {i : Instr} (h : decodeWords w v = .ok i) (hf : p.fieldsOk = true)
    (hp : p.fits (fld w 27 5).toNat = true) : decodeFetch (encodePfx p) w v = .ok ⟨some p, i, 1 + i.words⟩ := by
  simp [decodeFetch, hp, h, hf, -BitVec.extractLsb'_toNat]

/-- Settles O30: each row's words select that row again and give its operands back, no check of a well-formed instruction fails, and
a `Pfx` that fits is read back before it. -/
theorem encodeThenDecode : Obligations.EncodeThenDecode := by
  unfold Obligations.EncodeThenDecode
  intro i hi
  have hd := decodeWords_encode hi
  exact ⟨length_encode (Instr.wf_iff.1 hi).1, hd, decodeFetch_of_ok hd, fun p hf hp => decodeFetch_encodePfx hd hf hp⟩

/-! #### The words of what was decoded are the words read

One lemma for each format with a function code, by the arms of its decoder: MAJ, the code and the reserved bits that the arm requires are
the parts that the encoder writes as constants, so every part of the encoding is the word's own field. -/

section
variable {w v : IWord} {r : RawInstr}

theorem encode_of_rawInt (hm : fld w 27 5 = 3#5) (h : rawInt w = some r) : encode r.instr = [w] := by
  unfold rawInt at h
  split at h
  case h_16 =>
    have hf : fld w 2 4 = 15#4 := by
      simp only [imp_false] at *
      bv_omega
    cases h
    unfold encode
    simp [append_eq_iff, fld_extractLsb', *]
  all_goals
    cases h
    unfold encode
    simp [append_eq_iff, fld_extractLsb', *]

theorem encode_of_rawInt2 (hm : fld w 27 5 = 4#5) (h : rawInt2 w = some r) (hz : r.zeros = true) : encode r.instr = [w] := by
  unfold rawInt2 at h
  split at h
  case h_3 =>
    split at h
    case h_5 =>
      split at h <;> cases h <;> simp at hz <;> unfold encode <;>
        simp [append_eq_iff, fld_extractLsb', *, -BitVec.reduceAppend]
    all_goals
      cases h
      unfold encode
      simp [append_eq_iff, fld_extractLsb', *]
  all_goals
    cases h
    unfold encode
    simp [append_eq_iff, fld_extractLsb', *]

theorem encode_of_rawLogi (hm : fld w 27 5 = 6#5) (h : rawLogi w = some r) : encode r.instr = [w] := by
  rcases bitVec2_cases (fld w 11 2) with hf | hf | hf | hf
  all_goals
    simp only [rawLogi, hf] at h
    cases h
    unfold encode
    simp [append_eq_iff, fld_extractLsb', *]

theorem encode_of_rawShi (hm : fld w 27 5 = 7#5) (h : rawShi w = some r) (hz : r.zeros = true) : encode r.instr = [w] := by
  unfold rawShi at h
  split at h
  all_goals cases h
  all_goals
    simp at hz
    unfold encode
    simp [append_eq_iff, fld_extractLsb', *, -BitVec.reduceAppend]

theorem encode_of_rawFpa (hm : fld w 27 5 = 10#5) (h : rawFpa w = some r) (hz : r.zeros = true) : encode r.instr = [w] := by
  unfold rawFpa at h
  split at h
  all_goals cases h
  all_goals
    simp at hz
    unfold encode
    simp [append_eq_iff, fld_extractLsb', *, -BitVec.reduceAppend]

theorem encode_of_rawFpc (hm : fld w 27 5 = 11#5) (h : rawFpc w = some r) (hz : r.zeros = true) : encode r.instr = [w] := by
  unfold rawFpc at h
  split at h
  all_goals cases h
  all_goals
    simp at hz
    unfold encode
    simp [append_eq_iff, fld_extractLsb', *, -BitVec.reduceAppend]

theorem encode_of_rawCvt (hm : fld w 27 5 = 12#5) (h : rawCvt w = some r) (hz : r.zeros = true) :
    encode r.instr = [w] := by
  rcases bitVec2_cases (fld w 4 2) with hf | hf | hf | hf
  all_goals
    simp only [rawCvt, hf] at h
    cases h
    simp at hz
    unfold encode
    simp [append_eq_iff, fld_extractLsb', *, -BitVec.reduceAppend]

theorem encode_of_rawSfu (hm : fld w 27 5 = 13#5) (h : rawSfu w = some r) : encode r.instr = [w] := by
  unfold rawSfu at h
  split at h
  all_goals cases h
  all_goals
    unfold encode
    simp [append_eq_iff, fld_extractLsb', *]

theorem encode_of_rawXl (hm : fld w 27 5 = 14#5) (h : rawXl w = some r) (hz : r.zeros = true) : encode r.instr = [w] := by
  rcases bitVec2_cases (fld w 0 2) with hf | hf | hf | hf
  case inl =>
    rcases bitVec2_cases (fld w 11 2) with hg | hg | hg | hg
    case inr.inr.inl =>
      simp only [rawXl, hf, hg, BitVec.reduceEq, imp_self] at h
      split at h
      all_goals
        cases h
        simp at hz
        unfold encode
        simp [append_eq_iff, fld_extractLsb', *, -BitVec.reduceAppend]
    all_goals
      simp only [rawXl, hf, hg] at h
      cases h
      simp at hz
      unfold encode
      simp [append_eq_iff, fld_extractLsb', *, -BitVec.reduceAppend]
  all_goals
    simp only [rawXl, hf] at h
    cases h
    unfold encode
    simp [append_eq_iff, fld_extractLsb', *]

theorem encode_of_rawMcon (hm : fld w 27 5 = 17#5) (hd : fld v 27 5 = 0x1D#5) (h : rawMcon w v = some r) (hz : r.zeros = true) :
    encode r.instr = [w, v] := by
  rcases bitVec2_cases (fld w 0 2) with hf | hf | hf | hf
  all_goals
    simp only [rawMcon, hf] at h
    cases h
    simp at hz
    unfold encode
    simp [append_eq_iff, fld_extractLsb', *, -BitVec.reduceAppend]

theorem encode_of_rawSync (hm : fld w 27 5 = 25#5) (h : rawSync w = some r) (hz : r.zeros = true) : encode r.instr = [w] := by
  unfold rawSync at h
  split at h
  all_goals cases h
  all_goals
    simp at hz
    unfold encode
    simp [append_eq_iff, fld_extractLsb', *, -BitVec.reduceAppend]

theorem encode_of_rawCmd (hm : fld w 27 5 = 26#5) (h : rawCmd w = some r) (hz : r.zeros = true) : encode r.instr = [w] := by
  rcases bitVec2_cases (fld w 0 2) with hf | hf | hf | hf <;>
  rcases BitVec.eq_zero_or_eq_one (fld w 12 1) with h12 | h12 <;>
  rcases BitVec.eq_zero_or_eq_one (fld w 6 1) with h6 | h6
  all_goals
    simp only [rawCmd, hf, h12, h6] at h
    cases h
    simp at hz
    unfold encode
    simp [append_eq_iff, fld_extractLsb', *, -BitVec.reduceAppend]

theorem encode_of_rawBr (hm : fld w 27 5 = 27#5) (h : rawBr w = some r) : encode r.instr = [w] := by
  unfold rawBr at h
  split at h
  all_goals cases h
  all_goals
    unfold encode
    simp [append_eq_iff, fld_extractLsb', *]

theorem encode_of_rawCtl (hm : fld w 27 5 = 28#5) (h : rawCtl w = some r) (hz : r.zeros = true) : encode r.instr = [w] := by
  unfold rawCtl at h
  split at h
  all_goals cases h
  all_goals
    simp at hz
    unfold encode
    simp [append_eq_iff, fld_extractLsb', *, -BitVec.reduceAppend]

/-- MTRN, MPERM, MRSUM and MTOK are pairs. -/
theorem isPair_of_rawMcon (h : rawMcon w v = some r) : r.instr.isPair = true := by
  unfold rawMcon at h
  split at h <;> cases h <;> rfl

theorem encode_of_rawDecode (h : rawDecode w v = some r) (hz : r.zeros = true) (hd : r.instr.isPair = true → fld v 27 5 = 0x1D#5) :
    encode r.instr = if r.instr.isPair then [w, v] else [w] := by
  apply encode_eq_ite_isPair
  unfold rawDecode at h
  split at h
  case h_2 hm => exact .inl (encode_of_rawInt hm h)
  case h_3 hm => exact .inl (encode_of_rawInt2 hm h hz)
  case h_5 hm => exact .inl (encode_of_rawLogi hm h)
  case h_6 hm => exact .inl (encode_of_rawShi hm h hz)
  case h_9 hm => exact .inl (encode_of_rawFpa hm h hz)
  case h_10 hm => exact .inl (encode_of_rawFpc hm h hz)
  case h_11 hm => exact .inl (encode_of_rawCvt hm h hz)
  case h_12 hm => exact .inl (encode_of_rawSfu hm h)
  case h_13 hm => exact .inl (encode_of_rawXl hm h hz)
  case h_16 hm => exact .inr (encode_of_rawMcon hm (hd (isPair_of_rawMcon h)) h hz)
  case h_24 hm => exact .inl (encode_of_rawSync hm h hz)
  case h_25 hm => exact .inl (encode_of_rawCmd hm h hz)
  case h_26 hm => exact .inl (encode_of_rawBr hm h)
  case h_27 hm => exact .inl (encode_of_rawCtl hm h hz)
  case h_28 => cases h
  case h_14 | h_15 | h_17 | h_23 =>
    cases h
    have ht := hd rfl
    right
    simp at hz
    unfold encode
    simp [append_eq_iff, fld_extractLsb', *, -BitVec.reduceAppend]
  all_goals
    cases h
    left
    simp at hz
    unfold encode
    simp [append_eq_iff, fld_extractLsb', *, -BitVec.reduceAppend]
end

/-- Settles O31: the row that was selected is written with the words read, and the decoder's checks are those of a well-formed
instruction. -/
theorem decodeThenEncode : Obligations.DecodeThenEncode := by
  unfold Obligations.DecodeThenEncode
  intro w v i h
  obtain ⟨r, hr, rfl, hz, -, hd, hk, hdesc, hf⟩ := decodeWords_eq_ok_iff.1 h
  have hw := encode_of_rawDecode hr hz hd
  have he : r.instr.isEvent = false := by
    split at hw <;> exact isEvent_of_encode_eq_cons hw
  exact ⟨Instr.wf_iff.2 ⟨he, hk, hdesc, hf⟩, hw⟩

end Sys2Proof

namespace Sys2Proof.Encoding

/-- Settles O29, by running the decoder on each word. -/
theorem decodeWords : Obligations.DecodeWords := by
  unfold Obligations.DecodeWords
  decide

end Sys2Proof.Encoding
end

section

/-! ### A matrix word with no lane

A trap of R131 or R132 is a trap of the lanes of an issue set. An issue set without lanes has none to trap: its word at an unset convergence register
interlocks (R9). -/

namespace Sys2Proof.Machine

/-! #### An interlock is no trap -/

@[simp] theorem State.team_dropStopped (s : State) (c r : Nat) : s.dropStopped.team c r = s.team c r := by
  obtain ⟨x, hx⟩ := State.dropStopped_eq s
  rw [hx]
  rfl

/-- A trap that a handler takes leaves the group with a frame (R29). -/
theorem TrapTaken.framed {s s' : State} {t : Turn} {m : Team} {g : Group} {f : LaneCtx → Thread} {cause pc addr : Word}
    (h : TrapTaken s s' t m g f cause pc addr) : ∃ m' g', s'.team t.core t.tr = some m' ∧ m'.groups[t.grp]? = some g' ∧ g'.frame ≠ none := by
  obtain ⟨m', g', hm, -, -, hg, -, hframe, -, -⟩ := h.team
  exact ⟨m', g', hm, hg, by simp [hframe]⟩

/-- An instruction that interlocks takes no trap of a group that has a handler and no frame. -/
theorem Interlocks.not_traps {i : Instr} {s : State} {t : Turn} {m : Team} {g : Group} (hi : Interlocks i s t) (h : AtIssue s t m g)
    (hframe : g.frame = none) (hhandler : m.env.handlers.getD g.role 0 ≠ 0) (f : LaneCtx → Thread) (cause pc addr : Word) :
    ¬ Traps i s t m g f cause pc addr := by
  rintro ⟨htaken, -, -⟩
  obtain ⟨s', he, ht⟩ := htaken hframe hhandler
  obtain ⟨m', g', hm, hg, hne⟩ := ht.framed
  have hs : (s.spend t.core 1).dropStopped = s' := Host.Outcome.next.inj (hi.symm.trans he)
  rw [← hs, State.team_dropStopped, State.team_spend, h.team] at hm
  obtain rfl := Option.some.inj hm
  obtain rfl := Option.some.inj (h.group.symm.trans hg)
  exact hne hframe

/-! #### MTOK at an unset register -/

/-- What the state decides of MTOK, it decides for every lane of the issue set: with no lane there is nothing to trap (R131, R132). -/
theorem Issuing.ready_mtok_of_no_lanes {cv : BitVec 3} {rcv : BitVec 4} {s : State} {t : Turn} {m : Team} {g : Group}
    (h : Issuing (.mtok cv rcv) s t m g) (hl : t.lanes = []) : Ready (.mtok cv rcv) s t m g := by
  refine ⟨h, ?_⟩
  change (if Issue.badMatrix _ (.mtok cv rcv) false then t.lanes else []) = []
  rw [hl, ite_self]

/-- MTOK that issues with its register unset waits. -/
theorem mtok_interlocks_of_unset {cv : BitVec 3} {rcv : BitVec 4} {s : State} {t : Turn} {m : Team} {g : Group}
    (h : Ready (.mtok cv rcv) s t m g) (hv : m.cvs.find cv.toNat = none) : Interlocks (.mtok cv rcv) s t := by
  change matrixOp (.mtok cv rcv) s false = stall s t.core
  rw [matrixOp, issue_ready h]
  simp [convOf, hv]

/-! #### A turn without lanes -/

/-- The placed team with a handler; none of its convergence registers is set. -/
def handledTeam : Team := { placedTeam with env := { placedEnv with handlers := [0x10100, 0, 0, 0] } }

/-- A turn of its group whose lanes have all left it. -/
def laneless : Turn := { core := 0, tr := 0, grp := 0, lanes := [], pfx := none, ipc := placedCode, len := 8, closes := false }

/-- The package in that turn. -/
def lanelessState : State :=
  { State.reset with cores := [(0, { Core.reset with teams := [(0, handledTeam)], binds := [(0, 3)] })], turn := some laneless }

/-- MTOK issues there, and no lane meets a window or a word that traps. -/
theorem issuing_laneless : Issuing (.mtok 0 0) lanelessState laneless handledTeam (Group.fresh 0 0 256 placedCode 0 0) where
  turn := rfl
  team := rfl
  group := rfl
  nodup := List.nodup_nil
  quiet := fun _ hc => absurd hc List.not_mem_nil
  words := by decide

/-- Refutes O55: MatrixArrival asks a trap with DETAIL 6 of every matrix word whose register is unset, also of an issue set that has no lane. MTOK of such
an issue set, with a handler set and no frame in use, interlocks and saves no frame. -/
theorem not_matrixOperations : ¬ Obligations.MatrixOperations := by
  unfold Obligations.MatrixOperations
  rintro ⟨harrival, -⟩
  have hunset : handledTeam.cvs.find 0 = none := rfl
  have hinterlock : Interlocks (.mtok 0 0) lanelessState laneless :=
    mtok_interlocks_of_unset (issuing_laneless.ready_mtok_of_no_lanes rfl) hunset
  obtain ⟨htraps, -, -⟩ := harrival (.mtok 0 0) 0 lanelessState laneless handledTeam (Group.fresh 0 0 256 placedCode 0 0)
    rfl (by decide) rfl (fun _ hl => absurd hl List.not_mem_nil)
  obtain ⟨cause, -, htrap⟩ := htraps issuing_laneless (fun v hv => by rw [hunset] at hv; cases hv)
  exact hinterlock.not_traps issuing_laneless.toAtIssue rfl (by decide) _ _ _ _ htrap

end Sys2Proof.Machine
end
